-- ==== Sys2Proof/Word.lean ====
section
/-!
DEFINITION. The widths of the spec's values: bytes, command words and 128-bit blocks (00_scope.md R8, R9).
-/

namespace Sys2Proof

/-- One byte of a byte string (00_scope.md R9). -/
abbrev Byte := BitVec 8

/-- A command word `CMD` (30_encoding.md R70). -/
abbrev Word := BitVec 32

/-- A 128-bit block, bit 127 the most significant (00_scope.md R8). -/
abbrev Block := BitVec 128

/-- A 32-byte key store: slot 0 is bytes 0 to 15, slot 1 bytes 16 to 31 (10_state.md R25). -/
abbrev KeyStore := Vector Byte 32

end Sys2Proof
end

