-- ==== Sys2Proof/Config.lean ====
section
/-!
DEFINITION. The implementation parameters of 00_scope.md R6 and the free values of R12. Every one is an opaque
constant: nothing can be proved of its value, so a theorem of this model holds for every implementation.
-/

namespace Sys2Proof

/-- The three key-size classes (00_scope.md R7). The NONE of the class registers is `none` of `Option KeyClass`. -/
inductive KeyClass where
  | aes128
  | aes192
  | aes256
  deriving DecidableEq, Repr

/-- The legal values of `CTR_INC_WIDTH` (00_scope.md R6): how many low counter bits the primitive increments. -/
inductive CtrIncWidth where
  | w16
  | w128
  deriving DecidableEq, Repr, Inhabited

/-- The legal values of `KS_CONTINUATION` (00_scope.md R6): where the keystream of a second PROCESS starts. -/
inductive KsContinuation where
  | continuing
  | restart
  | unspecified
  deriving DecidableEq, Repr, Inhabited

/-- A known-answer fixture, the record of 43_lifecycle_selftest.md R172. -/
structure KnownAnswer where
  keySalt : List Byte
  nonce : List Byte
  pt : List Byte
  ct : List Byte
  deriving DecidableEq, Repr, Inhabited

/-- The registers that a memory-mapped command port lays out (20_memory.md R59): the two parts of a command and the parts
of its response (30_encoding.md R70), RDATA's length among them. Log 6. -/
inductive PortRegister where
  | cmd
  | data
  | status
  | rdata
  | rdataLength
  deriving DecidableEq, Repr

/-- `BUS_MAP` (00_scope.md R6): how a platform places command ports on its host bus. Its parts are those of
92_eei_decisions.md D25; the shapes of their types are the model's (log 6). -/
structure BusMap where
  /-- the numbers of the engine instances on the bus (60_exceptions.md R211) -/
  instances : List Nat
  /-- the bus addresses at which an instance's command port lies (20_memory.md R59) -/
  portAddresses : Nat → List Nat
  /-- the register layout of an instance's command port, where it is memory-mapped: which register lies at an address,
  and which byte of it; none at every address where the port is not memory-mapped (20_memory.md R59) -/
  registerAt : (inst address : Nat) → Option (PortRegister × Nat)
  /-- the command word a byte string stands for, or none where it stands for no word (20_memory.md R54) -/
  cmdOfBytes : List Byte → Option Word
  /-- the DATA string a byte string stands for, or none where it stands for none (20_memory.md R50) -/
  dataOfBytes : List Byte → Option (List Byte)
  /-- the bytes in which RDATA is carried to the host (20_memory.md R50) -/
  bytesOfRdata : List Byte → List Byte
  /-- the bytes in which a STATUS code is carried to the host (30_encoding.md R76) -/
  bytesOfStatus : BitVec 4 → List Byte
  /-- the bytes in which the length of RDATA is carried to the host (30_encoding.md R70) -/
  bytesOfLength : Nat → List Byte
  /-- whether a host agent may read an instance's response (60_exceptions.md R208) -/
  mayRead : (agent inst : Nat) → Bool
  /-- whether a host agent may issue a command word to an instance (60_exceptions.md R208) -/
  mayIssue : (agent inst : Nat) → Word → Bool
  deriving Inhabited

namespace Config

/-- `AES192_ENABLED` (R6, 92_eei_decisions.md D14). Log 5. -/
opaque aes192Enabled : Bool

/-- `AES_ENC(c, k, b)` (R6, D13). The class argument has the type of the class register, so that the value for
NONE, which no rule gives and no reachable state asks for, is as free as the others. Log 4. -/
opaque aesEnc : Option KeyClass → List Byte → Block → Block

/-- `CTR_INC_WIDTH` (R6, D12). Log 5. -/
opaque ctrIncWidth : CtrIncWidth

/-- `KS_CONTINUATION` (R6, D11). Log 5. -/
opaque ksContinuation : KsContinuation

/-- How far `MAX_DATA_LEN` lies above its least legal value 32. Log 5. -/
opaque maxDataLenAbove32 : Nat

/-- `MAX_DATA_LEN`, any natural number of at least 32 (R6, D6). -/
def maxDataLen : Nat := maxDataLenAbove32 + 32

/-- `DESC_STRING` (R6, D19). Log 5. -/
opaque descString : List Byte

/-- `KAT_192`, a fixture or none (R6, D18). Log 5. -/
opaque kat192 : Option KnownAnswer

/-- `BUS_MAP` of this platform (R6, D25). No step reads it: it is a matter outside the engine. Log 6. -/
opaque busMap : BusMap

/-- The outcome of allocation draw `i` of the command with a given serial number, where the command's record of
draws lists none (R12). Log 3. -/
opaque freeAllocOk : (serial i : Nat) → Bool

/-- The outcome of primitive draw `i` of the command with a given serial number, where none is listed (R12). Log 3. -/
opaque freePrimOk : (serial i : Nat) → Bool

/-- Byte `j` of `d.ks_bytes` of the command with a given serial number, where none is listed (R12). Log 3. -/
opaque freeKsByte : (serial j : Nat) → Byte

end Config
end Sys2Proof
end

