-- ==== Sys2Proof/Syntax.lean ====
section
/-!
DEFINITION. The seven commands (30_encoding.md R72) with the operands their command word carries (R71). The DATA
operand is no part of the word: it stands in `Machine.State.data` while the command runs.
-/

namespace Sys2Proof

/-- The direction bit `DIR` (30_encoding.md R71, 92_eei_decisions.md D23): 0 encrypt, 1 decrypt. -/
inductive Direction where
  | encrypt
  | decrypt
  deriving DecidableEq, Repr

/-- One constructor for each row of spec/opcode_table.json. -/
inductive Instr where
  /-- ALLOC with `KLEN` and `TLEN` in bytes, each zero-extended (30_encoding.md R75, 40_context_store.md R100). -/
  | alloc (klen tlen : Nat)
  /-- INIT; key and salt come in DATA (40_context_store.md R103). -/
  | init
  /-- SET_IV; the nonce comes in DATA (41_counter_derivation.md R130). -/
  | setIv (dir : Direction)
  /-- PROCESS, for ENCRYPT and DECRYPT alike; the buffer comes in DATA (42_cipher_driver.md R150). -/
  | process (dir : Direction)
  /-- DEALLOC (40_context_store.md R106). -/
  | dealloc
  /-- GET_DESC (43_lifecycle_selftest.md R174). -/
  | getDesc
  /-- SELF_TEST (43_lifecycle_selftest.md R171). -/
  | selfTest
  deriving DecidableEq, Repr

end Sys2Proof
end

