-- ==== Sys2Proof/WellFormed.lean ====
section
/-!
DEFINITION. Which terms of `Instr` a command word can carry: `KLEN` and `TLEN` are 8-bit fields (30_encoding.md R71).
-/

namespace Sys2Proof

/-- The operands fit their fields: `KLEN` and `TLEN` lie in 0 to 255 (30_encoding.md R71, R79). -/
def Instr.wf : Instr → Bool
  | .alloc klen tlen => klen < 256 && tlen < 256
  | .init => true
  | .setIv _ => true
  | .process _ => true
  | .dealloc => true
  | .getDesc => true
  | .selfTest => true

/-- `Instr.wf` as a decidable proposition. -/
abbrev WellFormed (i : Instr) : Prop := i.wf = true

end Sys2Proof
end

