-- ==== Sys2Proof/Decode.lean ====
section
/-!
DEFINITION. The decoder of command words (30_encoding.md R73, R74), the encoder of instructions (R71), and the
pseudo-commands (R80).
-/

namespace Sys2Proof

/-- Why a command word is ILLEGAL (30_encoding.md R74, 92_eei_decisions.md D20). The engine answers all of them alike;
the names are the model's (log 13). -/
inductive Illegal where
  /-- `OP` is 0x0 or 0x8 to 0xF. -/
  | reservedOpcode
  /-- A bit of 7:5 or 31:24 is set. -/
  | reservedBit
  /-- `DIR`, `KLEN` or `TLEN` is nonzero on an opcode that does not use it. -/
  | unusedField
  /-- A byte string that the platform's `BUS_MAP` does not read as a command word (20_memory.md R54). -/
  | notACommandWord
  deriving DecidableEq, Repr

/-- `DIR` = `CMD[4]` (30_encoding.md R71). -/
def dirOf (w : Word) : Direction :=
  if w.extractLsb' 4 1 = 0 then .encrypt else .decrypt

/-- `KLEN` = `zext(CMD[15:8])` (30_encoding.md R75). -/
def klenOf (w : Word) : Nat := (w.extractLsb' 8 8).toNat

/-- `TLEN` = `zext(CMD[23:16])` (30_encoding.md R75). -/
def tlenOf (w : Word) : Nat := (w.extractLsb' 16 8).toNat

/-- A row of the table of 30_encoding.md R73: a word selects it when `CMD AND mask = match`. -/
structure Row where
  pattern : Word
  mask : Word
  build : Word → Instr

/-- Whether a word selects a row (30_encoding.md R73). -/
def Row.selects (r : Row) (w : Word) : Bool := w &&& r.mask = r.pattern

/-- The rows of 30_encoding.md R73, in the table's order. -/
def rows : List Row :=
  [ ⟨0x00000001, 0xFF0000FF, fun w => .alloc (klenOf w) (tlenOf w)⟩,
    ⟨0x00000002, 0xFFFFFFFF, fun _ => .init⟩,
    ⟨0x00000003, 0xFFFFFFEF, fun w => .setIv (dirOf w)⟩,
    ⟨0x00000004, 0xFFFFFFEF, fun w => .process (dirOf w)⟩,
    ⟨0x00000005, 0xFFFFFFFF, fun _ => .dealloc⟩,
    ⟨0x00000006, 0xFFFFFFFF, fun _ => .getDesc⟩,
    ⟨0x00000007, 0xFFFFFFFF, fun _ => .selfTest⟩ ]

/-- The name of what is wrong with a word that selects no row: its opcode (30_encoding.md R72), else a reserved bit
(R71), else a field its opcode does not use. -/
def illegalReason (w : Word) : Illegal :=
  if w.extractLsb' 0 4 = 0 ∨ 8 ≤ (w.extractLsb' 0 4).toNat then .reservedOpcode
  else if w.extractLsb' 5 3 ≠ 0 ∨ w.extractLsb' 24 8 ≠ 0 then .reservedBit
  else .unusedField

/-- `Decode(CMD)` of 30_encoding.md R74: total on every 32-bit word. -/
def decode (w : Word) : Except Illegal Instr :=
  match rows.find? (·.selects w) with
  | some r => .ok (r.build w)
  | none => .error (illegalReason w)

/-- The decoder over the bytes a platform carries a command word in: `BUS_MAP` says which word they are
(20_memory.md R54), and `decode` reads it. Log 6. -/
def decodeBytes (bs : List Byte) : Except Illegal Instr :=
  match Config.busMap.cmdOfBytes bs with
  | some w => decode w
  | none => .error .notACommandWord

/-- The bit of a direction (92_eei_decisions.md D23). -/
def dirBit : Direction → BitVec 1
  | .encrypt => 0
  | .decrypt => 1

/-- The command word of a well-formed instruction, its fields laid out as 30_encoding.md R71 says: from the high end
the reserved byte, `TLEN`, `KLEN`, the reserved bits 7:5, `DIR` and `OP`. -/
def encode : Instr → Word
  | .alloc klen tlen => 0#8 ++ BitVec.ofNat 8 tlen ++ BitVec.ofNat 8 klen ++ 0#3 ++ 0#1 ++ 1#4
  | .init => 0#8 ++ 0#8 ++ 0#8 ++ 0#3 ++ 0#1 ++ 2#4
  | .setIv dir => 0#8 ++ 0#8 ++ 0#8 ++ 0#3 ++ dirBit dir ++ 3#4
  | .process dir => 0#8 ++ 0#8 ++ 0#8 ++ 0#3 ++ dirBit dir ++ 4#4
  | .dealloc => 0#8 ++ 0#8 ++ 0#8 ++ 0#3 ++ 0#1 ++ 5#4
  | .getDesc => 0#8 ++ 0#8 ++ 0#8 ++ 0#3 ++ 0#1 ++ 6#4
  | .selfTest => 0#8 ++ 0#8 ++ 0#8 ++ 0#3 ++ 0#1 ++ 7#4

/-- The 32-bit command word whose low `nbits` bits are those of `w`, every other bit zero. -/
def wordOfTable (nbits w : Nat) : Word := BitVec.ofNat 32 (w % 2 ^ nbits)

/-- The instruction the decoder reads from the table's bits; a command word has 32 bits and no more
(30_encoding.md R70, R78). -/
def decodeTableWord (nbits w : Nat) : Option Instr :=
  if 32 < nbits then none
  else
    match decode (wordOfTable nbits w) with
    | .ok i => some i
    | .error _ => none

/-- The pseudo-commands (30_encoding.md R80). -/
inductive PseudoCommand where
  | setIv
  | process
  | encrypt
  | decrypt
  | allocAes128
  | allocAes192
  | allocAes256
  deriving DecidableEq, Repr

/-- The expansion of a pseudo-command (30_encoding.md R80). -/
def PseudoCommand.expand : PseudoCommand → Instr
  | .setIv => .setIv .encrypt
  | .process => .process .encrypt
  | .encrypt => .process .encrypt
  | .decrypt => .process .decrypt
  | .allocAes128 => .alloc 30 0
  | .allocAes192 => .alloc 38 0
  | .allocAes256 => .alloc 46 0

end Sys2Proof
end

