-- ==== Sys2Proof/Machine/State.lean ====
section
/-!
DEFINITION. The state of one engine instance (10_state.md), the command port in front of it (30_encoding.md R70), and
the machine after reset (10_state.md R34). All plain data.
-/

namespace Sys2Proof.Machine

/-- `LC` (10_state.md R23): exactly the five values that occur. -/
inductive Lifecycle where
  | unalloc
  | alloc
  | init
  | ivset
  | processed
  deriving DecidableEq, Repr

/-- `STATUS` (30_encoding.md R76): exactly the seven codes that are returned. -/
inductive Status where
  | ok
  | invalidParameter
  | allocationFailure
  | cipherFailure
  | selfTestFailure
  | invalidState
  | illegalCommand
  deriving DecidableEq, Repr

/-- A response `(STATUS, RDATA)` (30_encoding.md R70). -/
structure Response where
  status : Status
  rdata : List Byte
  deriving DecidableEq, Repr

/-- The internal state of the external primitive (10_state.md R28). -/
structure Primitive where
  /-- `PSEEDED` -/
  seeded : Bool
  /-- `PKCLASS`; `none` is NONE -/
  pkclass : Option KeyClass
  /-- `PKEY` -/
  pkey : KeyStore
  /-- `PCTR0` -/
  pctr0 : Block
  /-- `KSPOS` -/
  kspos : Nat
  deriving DecidableEq, Repr

/-- The ten registers of one engine instance (10_state.md R20), the last five in `prim`. -/
structure Engine where
  /-- `LC` -/
  lc : Lifecycle
  /-- `KCLASS`; `none` is NONE -/
  kclass : Option KeyClass
  /-- `KEY` -/
  key : KeyStore
  /-- `OFFSET` -/
  offset : Block
  /-- `COUNTER` -/
  counter : Block
  /-- `PSEEDED`, `PKCLASS`, `PKEY`, `PCTR0`, `KSPOS` -/
  prim : Primitive
  deriving DecidableEq, Repr

/-- The record of draws `d` of one command (00_scope.md R12): entry `i` of a list, where it is there, is the outcome of
draw `i`; an outcome that is not listed is a free value of `Config`. Log 3. -/
structure Draws where
  /-- `d.alloc_ok` -/
  allocOk : List Bool
  /-- `d.prim_ok` -/
  primOk : List Bool
  /-- `d.ks_bytes` -/
  ksBytes : List Byte
  deriving DecidableEq, Repr

/-- The record that lists no draw: every outcome is free. -/
def Draws.free : Draws := ⟨[], [], []⟩

/-- A command on the port: the inputs `cmd`, `data` and `d` of `Step` (00_scope.md R11). -/
structure Command where
  cmd : Word
  data : List Byte
  draws : Draws
  deriving DecidableEq, Repr

/-- What the host may deliver to the port: a command (30_encoding.md R70), or the reset event, which is separate from
commands (70_reset_and_hazards.md R230). -/
inductive PortEvent where
  | command (c : Command)
  | reset
  deriving DecidableEq, Repr

/-- The engine and its command port. Only `eng` is the spec's own state (10_state.md R20); the other fields are the
model's image of the inputs and outputs of `Step` (00_scope.md R11). Logs 1, 3, 9. -/
structure State where
  /-- the ten registers -/
  eng : Engine
  /-- events the host has delivered and the engine has not taken yet, in port order (20_memory.md R61) -/
  inbox : List PortEvent
  /-- DATA of the command in progress; empty between commands -/
  data : List Byte
  /-- the draws of the command in progress; none listed between commands -/
  draws : Draws
  /-- the response of the latest command, none after reset -/
  resp : Option Response
  /-- how many commands have been taken; names the free values of each command -/
  serial : Nat
  deriving DecidableEq, Repr

/-- The reasons to stop with a fault: none. The engine has no traps, exceptions or fault states, and every command
completes and answers (60_exceptions.md R200). Safe. Log 10. -/
inductive Fault where
  deriving DecidableEq, Repr

/-- The reasons to refuse an instruction. -/
inductive Refusal where
  /-- Raised by an arm of `exec` for an instruction that has no meaning yet; no arm does. Safe: the run stops. -/
  | notModelled (mnemonic : String)
  deriving DecidableEq, Repr

/-- `zeros(32)` (00_scope.md R9). -/
def zeroKey : KeyStore := Vector.replicate 32 0

/-- The primitive after reset (10_state.md R34). -/
def Primitive.reset : Primitive where
  seeded := false
  pkclass := none
  pkey := zeroKey
  pctr0 := 0
  kspos := 0

/-- Every register of the engine after reset (10_state.md R34). -/
def Engine.reset : Engine where
  lc := .unalloc
  kclass := none
  key := zeroKey
  offset := 0
  counter := 0
  prim := Primitive.reset

/-- The machine right after reset: the registers of 10_state.md R34, and a port on which nothing has been delivered
(log 9). -/
def State.reset : State where
  eng := Engine.reset
  inbox := []
  data := []
  draws := Draws.free
  resp := none
  serial := 0

end Sys2Proof.Machine
end

