-- ==== Sys2Proof/Machine/Flags.lean ====
section
/-!
DEFINITION. The engine has no flags or condition codes: the only condition a command reports is the status code of
its response (10_state.md R30). This file holds the codes of the enumerated registers and statuses and the two ways a
command answers.
-/

namespace Sys2Proof.Machine

/-- The 4-bit code of a status (30_encoding.md R76). -/
def Status.code : Status → BitVec 4
  | .ok => 0
  | .invalidParameter => 1
  | .allocationFailure => 2
  | .cipherFailure => 3
  | .selfTestFailure => 4
  | .invalidState => 5
  | .illegalCommand => 6

/-- The 3-bit code of `LC` (10_state.md R23). -/
def Lifecycle.code : Lifecycle → BitVec 3
  | .unalloc => 0
  | .alloc => 1
  | .init => 2
  | .ivset => 3
  | .processed => 4

/-- The 2-bit code of `KCLASS` and `PKCLASS` (10_state.md R24). -/
def classCode : Option KeyClass → BitVec 2
  | none => 0
  | some .aes128 => 1
  | some .aes192 => 2
  | some .aes256 => 3

/-- `return (st, rd)` with the registers `e` (00_scope.md R10). -/
def State.answer (s : State) (e : Engine) (st : Status) (rd : List Byte) : State :=
  { s with eng := e, resp := some ⟨st, rd⟩ }

/-- `fail st`: the one shared way a command reports an error. It answers `(st, empty)` and writes no register
(00_scope.md R10, 60_exceptions.md R202, R206). -/
def State.fail (s : State) (st : Status) : State :=
  { s with resp := some ⟨st, []⟩ }

end Sys2Proof.Machine
end

