-- ==== Sys2Proof/Machine/Operands.lean ====
section
/-!
DEFINITION. Operand assembly (30_encoding.md R75), byte strings and blocks (00_scope.md R9, 20_memory.md R51), and the
class functions (00_scope.md R7, 40_context_store.md R101).
-/

namespace Sys2Proof.Machine

/-- `K(c)`, the key bytes of a class (00_scope.md R7). -/
def keyLen : KeyClass → Nat
  | .aes128 => 16
  | .aes192 => 24
  | .aes256 => 32

/-- The salt length of every context (00_scope.md R6). -/
def saltLen : Nat := 14

/-- `TOTAL(c)`, the key-plus-salt bytes of a class, as the table of 00_scope.md R7 gives them. -/
def totalLen : KeyClass → Nat
  | .aes128 => 30
  | .aes192 => 38
  | .aes256 => 46

/-- `K(KCLASS)` for the class register. `K(NONE)` is given by no rule and asked for in no reachable state; the model
reads it as 0 (DESIGN CHOICE, log 7). -/
def keyLenOf : Option KeyClass → Nat
  | none => 0
  | some c => keyLen c

/-- `ClassOf(L)` (40_context_store.md R101), for a build with or without AES-192. -/
def classOf (aes192Enabled : Bool) (len : Nat) : Option KeyClass :=
  if len = 30 then some .aes128
  else if len = 38 ∧ aes192Enabled = true then some .aes192
  else if len = 46 then some .aes256
  else none

/-- `be128(s)`: a 16-byte string read big-endian, byte 0 in bits 127:120 (00_scope.md R9). Log 8. -/
def be128 (s : List Byte) : Block :=
  s.foldl (fun acc b => (acc <<< 8) ||| b.setWidth 128) 0

/-- Byte `i` of a block: bits `[127-8i : 120-8i]` (00_scope.md R9). -/
def blockByte (b : Block) (i : Nat) : Byte := b.extractLsb' (120 - 8 * i) 8

/-- `bytes16(b)`, the inverse of `be128` (00_scope.md R9). -/
def bytes16 (b : Block) : List Byte := (List.range 16).map (blockByte b)

/-- The `n` bytes of a hex literal, most significant byte first (00_scope.md R9). -/
def hexBytes (n v : Nat) : List Byte :=
  (List.range n).map fun i => BitVec.ofNat 8 (v >>> (8 * (n - 1 - i)))

/-- The salt of a key-plus-salt string whose key has `k` bytes: bytes `k` to `k+13` (40_context_store.md R103). -/
def saltOf (k : Nat) (data : List Byte) : List Byte := (data.drop k).take saltLen

/-- The nonce of a DATA string: its first 16 bytes (41_counter_derivation.md R130). -/
def nonceOf (data : List Byte) : List Byte := data.take 16

/-- The nonce/salt region of a counter block, bits 127:64 (20_memory.md R52; informative: no rule reads it). -/
def nonceRegion (b : Block) : BitVec 64 := b.extractLsb' 64 64

/-- The packet-index region of a counter block, bits 63:16 (20_memory.md R52; informative: no rule reads it). -/
def packetIndexRegion (b : Block) : BitVec 48 := b.extractLsb' 16 48

/-- The block counter subfield of a counter block, bits 15:0 (20_memory.md R52). -/
def blockCounter (b : Block) : BitVec 16 := b.extractLsb' 0 16

end Sys2Proof.Machine
end

