-- ==== Sys2Proof/Machine/Ops.lean ====
section
/-!
DEFINITION. The named operations the commands share: the draws, the register writes, the derivations, the keystream,
and the port's hand-over of a command. The engine has no memory and no exception to take (10_state.md R33,
60_exceptions.md R206); the one shared way to report an error is `State.fail` in Flags.lean.
-/

namespace Sys2Proof.Machine

/-! ## Draws (00_scope.md R12) -/

/-- `d.alloc_ok(i)`: the listed outcome, or a free value. -/
def State.allocOk (s : State) (i : Nat) : Bool :=
  (s.draws.allocOk[i]?).getD (Config.freeAllocOk s.serial i)

/-- `d.prim_ok(i)`: the listed outcome, or a free value. -/
def State.primOk (s : State) (i : Nat) : Bool :=
  (s.draws.primOk[i]?).getD (Config.freePrimOk s.serial i)

/-- `d.ks_bytes[j]`: the listed byte, or a free value. -/
def State.ksDraw (s : State) (j : Nat) : Byte :=
  (s.draws.ksBytes[j]?).getD (Config.freeKsByte s.serial j)

/-! ## The primitive (10_state.md R28) -/

/-- `Seed(c, k, ctr)` (10_state.md R28). -/
def Engine.seed (e : Engine) (c : Option KeyClass) (k : KeyStore) (ctr : Block) : Engine :=
  { e with prim := { seeded := true, pkclass := c, pkey := k, pctr0 := ctr, kspos := 0 } }

/-- `Unseed()` (10_state.md R28). -/
def Engine.unseed (e : Engine) : Engine :=
  { e with prim := { seeded := false, pkclass := none, pkey := zeroKey, pctr0 := 0, kspos := 0 } }

/-- `KSPOS <- KSPOS + n` (42_cipher_driver.md R150). -/
def Engine.advance (e : Engine) (n : Nat) : Engine :=
  { e with prim := { e.prim with kspos := e.prim.kspos + n } }

/-! ## Register writes of the context store -/

/-- The writes of a successful ALLOC (40_context_store.md R100). -/
def Engine.bindClass (e : Engine) (c : KeyClass) : Engine :=
  { e.unseed with lc := .alloc, kclass := some c, key := zeroKey, offset := 0, counter := 0 }

/-- `SaltBlock(salt)`: the salt in bytes 0 to 13, bytes 14 and 15 forced to zero (40_context_store.md R104). -/
def saltBlock (salt : List Byte) : Block := be128 (salt ++ [0, 0])

/-- `KEY[0 .. k-1] <- data[0 .. k-1]`, the other bytes unchanged (40_context_store.md R103, R105). -/
def loadKey (key : KeyStore) (k : Nat) (data : List Byte) : KeyStore :=
  Vector.ofFn fun i => if i.val < k then data.getD i.val 0 else key[i]

/-- The writes of a successful INIT with a key-plus-salt string (40_context_store.md R103). -/
def Engine.loadContext (e : Engine) (data : List Byte) : Engine :=
  let k := keyLenOf e.kclass
  let block := saltBlock (saltOf k data)
  { e.unseed with lc := .init, key := loadKey e.key k data, offset := block, counter := block }

/-- The writes of DEALLOC, which SELF_TEST's `Zeroize()` shares (40_context_store.md R106). -/
def Engine.zeroize (e : Engine) : Engine :=
  { e.unseed with lc := .unalloc, kclass := none, key := zeroKey, offset := 0, counter := 0 }

/-! ## Counter derivation -/

/-- `DeriveCounter(offset, nonce)`, a full 128-bit XOR with no masking (41_counter_derivation.md R131,
90_conflicts.md C1). -/
def deriveCounter (offset : Block) (nonce : List Byte) : Block := offset ^^^ be128 nonce

/-- The register writes of SET_IV up to the primitive's init call (41_counter_derivation.md R130). -/
def Engine.derive (e : Engine) (nonce : List Byte) : Engine :=
  { e with counter := deriveCounter e.offset nonce }

/-- `Seed(KCLASS, KEY, COUNTER)`, then `LC <- IVSET` (41_counter_derivation.md R130). -/
def Engine.seedFromContext (e : Engine) : Engine :=
  { e.seed e.kclass e.key e.counter with lc := .ivset }

/-- What a failed primitive call leaves: unseeded, `LC` = INIT (41_counter_derivation.md R130, 42_cipher_driver.md R150,
92_eei_decisions.md D10). -/
def Engine.cipherFailed (e : Engine) : Engine := { e.unseed with lc := .init }

/-! ## The keystream (42_cipher_driver.md R151, R152) -/

/-- `Inc(C, b)` for each `CTR_INC_WIDTH` (42_cipher_driver.md R151). -/
def inc (w : CtrIncWidth) (c : Block) (b : Nat) : Block :=
  match w with
  | .w128 => c + BitVec.ofNat 128 b
  | .w16 => c.extractLsb' 16 112 ++ (c.extractLsb' 0 16 + BitVec.ofNat 16 b)

/-- `KsBlock(b)` (42_cipher_driver.md R151): the key is the first `K(PKCLASS)` bytes of `PKEY`. -/
def ksBlock (w : CtrIncWidth) (p : Primitive) (b : Nat) : Block :=
  Config.aesEnc p.pkclass (p.pkey.toList.take (keyLenOf p.pkclass)) (inc w p.pctr0 b)

/-- `KsByte(p)` (42_cipher_driver.md R151), counted from the seeding. -/
def ksByte (w : CtrIncWidth) (p : Primitive) (pos : Nat) : Byte :=
  blockByte (ksBlock w p (pos / 16)) (pos % 16)

/-- `Ks(j)` for each `KS_CONTINUATION` (42_cipher_driver.md R152). -/
def keystream (k : KsContinuation) (w : CtrIncWidth) (p : Primitive) (draw : Nat → Byte) (j : Nat) : Byte :=
  match k with
  | .continuing => ksByte w p (p.kspos + j)
  | .restart => ksByte w p j
  | .unspecified => if p.kspos = 0 then ksByte w p j else draw j

/-- `Ks(j)` of a PROCESS in state `s` on this implementation (42_cipher_driver.md R152). -/
def State.ks (s : State) (j : Nat) : Byte :=
  keystream Config.ksContinuation Config.ctrIncWidth s.eng.prim s.ksDraw j

/-- `out[j] <- in[j] XOR ks(j)` for every byte (42_cipher_driver.md R150). -/
def xorStream (ks : Nat → Byte) (buf : List Byte) : List Byte := buf.mapIdx fun j b => b ^^^ ks j

/-! ## The command port -/

/-- The port hands a command over: its DATA and draws are the operands in progress, and no status of an earlier command
is kept (00_scope.md R11, 10_state.md R30). -/
def State.takeCommand (s : State) (c : Command) (rest : List PortEvent) : State :=
  { s with inbox := rest, data := c.data, draws := c.draws, resp := none, serial := s.serial + 1 }

/-- The command is over: its operands are no longer on the port (30_encoding.md R70). -/
def State.retire (s : State) : State := { s with data := [], draws := Draws.free }

/-- The reset event: every register at its reset value, no response (70_reset_and_hazards.md R230). The events behind it
stay on the port, and the count that names free values goes on. -/
def State.takeReset (s : State) (rest : List PortEvent) : State :=
  { s with eng := Engine.reset, inbox := rest, data := [], draws := Draws.free, resp := none }

/-- The host delivers one more event to the port (20_memory.md R61). -/
def State.deliver (s : State) (ev : PortEvent) : State := { s with inbox := s.inbox ++ [ev] }

/-- The outcome of a command after the port has retired it. -/
def retireOutcome : Host.Outcome State Fault Refusal → Host.Outcome State Fault Refusal
  | .next s => .next s.retire
  | .fault f => .fault f
  | .refused r => .refused r

/-- Put a command word where the next step fetches it: into the command that is next on the port, whose DATA and draws
stay, or, where none is next, into a new one with no DATA and no draw listed. -/
def placeWord (w : Word) : List PortEvent → List PortEvent
  | .command c :: rest => .command { c with cmd := w } :: rest
  | evs => .command { cmd := w, data := [], draws := Draws.free } :: evs

end Sys2Proof.Machine
end

