-- ==== Sys2Proof/Machine/CommandPort.lean ====
section
/-!
DEFINITION. What the engine does with a command word that decodes to ILLEGAL (30_encoding.md R74).
-/

namespace Sys2Proof.Machine

/-- An ILLEGAL word leaves the registers unchanged and answers `(ILLEGAL_COMMAND, empty)` (30_encoding.md R74). -/
def execIllegal (s : State) : Host.Outcome State Fault Refusal :=
  .next (s.fail .illegalCommand)

end Sys2Proof.Machine
end

