-- ==== Sys2Proof/Machine/CipherDriver.lean ====
section
/-!
DEFINITION. The Cipher Driver command PROCESS (42_cipher_driver.md).
-/

namespace Sys2Proof.Machine

/-- PROCESS (42_cipher_driver.md R150). `DIR` has no effect; an empty buffer consults no draw (R155). -/
def execProcess (_dir : Direction) (s : State) : Host.Outcome State Fault Refusal :=
  .next <|
    if s.eng.lc ∉ [.ivset, .processed] then s.fail .invalidState
    else if Config.maxDataLen < s.data.length then s.fail .invalidParameter
    else if s.data = [] then s.answer { s.eng with lc := .processed } .ok []
    else if s.primOk 0 then
      s.answer { s.eng.advance s.data.length with lc := .processed } .ok (xorStream s.ks s.data)
    else s.answer s.eng.cipherFailed .cipherFailure []

end Sys2Proof.Machine
end

