-- ==== Sys2Proof/Machine/ContextStore.lean ====
section
/-!
DEFINITION. The Key/Context Store commands ALLOC, INIT and DEALLOC (40_context_store.md).
-/

namespace Sys2Proof.Machine

/-- ALLOC (40_context_store.md R100). `TLEN` is ignored. -/
def execAlloc (klen _tlen : Nat) (s : State) : Host.Outcome State Fault Refusal :=
  .next <|
    if s.eng.lc ≠ .unalloc then s.fail .invalidState
    else
      match classOf Config.aes192Enabled klen with
      | none => s.fail .invalidParameter
      | some c =>
        if s.allocOk 0 then s.answer (s.eng.bindClass c) .ok []
        else s.fail .allocationFailure

/-- INIT (40_context_store.md R103). -/
def execInit (s : State) : Host.Outcome State Fault Refusal :=
  .next <|
    if s.eng.lc ∉ [.alloc, .init, .ivset, .processed] then s.fail .invalidState
    else if s.data.length < keyLenOf s.eng.kclass + saltLen then s.fail .invalidParameter
    else s.answer (s.eng.loadContext s.data) .ok []

/-- DEALLOC (40_context_store.md R106): legal in every `LC`, always OK. -/
def execDealloc (s : State) : Host.Outcome State Fault Refusal :=
  .next (s.answer s.eng.zeroize .ok [])

end Sys2Proof.Machine
end

