-- ==== Sys2Proof/Machine/CounterDerivation.lean ====
section
/-!
DEFINITION. The Counter Derivation command SET_IV (41_counter_derivation.md).
-/

namespace Sys2Proof.Machine

/-- SET_IV (41_counter_derivation.md R130). `DIR` has no effect (R133); `COUNTER` stays written when the primitive's
init fails. -/
def execSetIv (_dir : Direction) (s : State) : Host.Outcome State Fault Refusal :=
  .next <|
    if s.eng.lc ∉ [.init, .ivset, .processed] then s.fail .invalidState
    else if s.data.length < 16 then s.fail .invalidParameter
    else
      let e := s.eng.derive (nonceOf s.data)
      if s.primOk 0 then s.answer e.seedFromContext .ok []
      else s.answer e.cipherFailed .cipherFailure []

end Sys2Proof.Machine
end

