-- ==== Sys2Proof/Machine/SelfTest.lean ====
section
/-!
DEFINITION. The Lifecycle and Self-Test commands SELF_TEST and GET_DESC (43_lifecycle_selftest.md).
-/

namespace Sys2Proof.Machine

/-- `KAT(AES128)` (43_lifecycle_selftest.md R172). -/
def kat128 : KnownAnswer where
  keySalt := hexBytes 30 0x2b7e151628aed2a6abf7158809cf4f3cf0f1f2f3f4f5f6f7f8f9fafbfcfd
  nonce := List.replicate 16 0
  pt := List.replicate 32 0
  ct := hexBytes 32 0xe03ead0935c95e80e166b16dd92b4eb4d23513162b02d0f72a43a2fe4a5f97ab

/-- `KAT(AES256)`, its ciphertext as corrected (43_lifecycle_selftest.md R172, 90_conflicts.md C3). Log 14. -/
def kat256 : KnownAnswer where
  keySalt :=
    hexBytes 46
      0x57f82fe3613fd170a85ec93c40b1f0922ec4cb0dc025b58272147cc438944a98f0f1f2f3f4f5f6f7f8f9fafbfcfd
  nonce := List.replicate 16 0
  pt := List.replicate 32 0
  ct := hexBytes 32 0x92bdd28a93c3f52511c677d08b5515a49da71b2378a854f67050756ded165bac

/-- The classes SELF_TEST runs, in order, each with its fixture: AES192 only when it is enabled and has one
(43_lifecycle_selftest.md R171). -/
def selfTestCases (aes192Enabled : Bool) (kat192 : Option KnownAnswer) : List (KeyClass × KnownAnswer) :=
  (.aes128, kat128) ::
    (match aes192Enabled, kat192 with
      | true, some f => [(.aes192, f)]
      | _, _ => []) ++ [(.aes256, kat256)]

/-- A malformed fixture (43_lifecycle_selftest.md R171). -/
def malformed (c : KeyClass) (f : KnownAnswer) : Bool :=
  f.keySalt.length != totalLen c || f.nonce.length != 16 || f.pt.length != f.ct.length

/-- What SELF_TEST carries from class to class: the registers, and the numbers `a` and `p` of the next allocation and
primitive draws (43_lifecycle_selftest.md R171). -/
structure TestRun where
  eng : Engine
  a : Nat
  p : Nat
  deriving DecidableEq, Repr

/-- The registers after the ALLOC, INIT and SET_IV of one class's test (43_lifecycle_selftest.md R171). -/
def seededForTest (e : Engine) (c : KeyClass) (f : KnownAnswer) : Engine :=
  (((e.bindClass c).loadContext f.keySalt).derive f.nonce).seedFromContext

/-- The registers after the PROCESS of one class's test (43_lifecycle_selftest.md R171). -/
def processedForTest (e : Engine) (c : KeyClass) (f : KnownAnswer) : Engine :=
  { (seededForTest e c f).advance f.pt.length with lc := .processed }

/-- The bytes the PROCESS of one class's test returns; `KSPOS` is 0 there (43_lifecycle_selftest.md R171). -/
def testOutput (w : CtrIncWidth) (e : Engine) (c : KeyClass) (f : KnownAnswer) : List Byte :=
  xorStream (ksByte w (seededForTest e c f).prim) f.pt

/-- The draw number after the primitive calls of one class's test: SET_IV takes one, a PROCESS of a nonempty buffer one
more (43_lifecycle_selftest.md R171). -/
def nextPrimDraw (p : Nat) (f : KnownAnswer) : Nat := if f.pt = [] then p + 1 else p + 2

/-- One class of SELF_TEST: the status of its first failing step, or the run to go on with
(43_lifecycle_selftest.md R171). -/
def testClass (s : State) (c : KeyClass) (f : KnownAnswer) (r : TestRun) : Except Status TestRun :=
  if malformed c f then .error .invalidParameter
  else if s.allocOk r.a = false then .error .allocationFailure
  else if s.primOk r.p = false then .error .cipherFailure
  else if f.pt ≠ [] ∧ s.primOk (r.p + 1) = false then .error .cipherFailure
  else if testOutput Config.ctrIncWidth r.eng c f ≠ f.ct then .error .selfTestFailure
  else .ok ⟨(processedForTest r.eng c f).zeroize, r.a + 1, nextPrimDraw r.p f⟩

/-- The classes one after another, stopping at the first failure (43_lifecycle_selftest.md R171). -/
def testClasses (s : State) : List (KeyClass × KnownAnswer) → TestRun → Except Status TestRun
  | [], r => .ok r
  | (c, f) :: rest, r =>
    match testClass s c f r with
    | .error st => .error st
    | .ok r' => testClasses s rest r'

/-- What SELF_TEST leaves once it runs the given classes: the status of the first failing step, or OK, zeroized either
way (43_lifecycle_selftest.md R171). -/
def selfTestOn (cases : List (KeyClass × KnownAnswer)) (s : State) : State :=
  match testClasses s cases ⟨s.eng, 0, 0⟩ with
  | .error st => s.answer s.eng.zeroize st []
  | .ok r => s.answer r.eng .ok []

/-- SELF_TEST (43_lifecycle_selftest.md R171). Every path but INVALID_STATE ends zeroized. -/
def execSelfTest (s : State) : Host.Outcome State Fault Refusal :=
  .next <|
    if s.eng.lc ≠ .unalloc then s.fail .invalidState
    else selfTestOn (selfTestCases Config.aes192Enabled Config.kat192) s

/-- GET_DESC (43_lifecycle_selftest.md R174): legal in every `LC`, writes no register. -/
def execGetDesc (s : State) : Host.Outcome State Fault Refusal :=
  .next (s.answer s.eng .ok Config.descString)

end Sys2Proof.Machine
end

