-- ==== Sys2Proof/Machine/Dispatch.lean ====
section
/-! DEFINITION. One arm for each command of 30_encoding.md R72. -/

namespace Sys2Proof.Machine

def exec (i : Instr) (s : State) : Host.Outcome State Fault Refusal :=
  match i with
  | .alloc klen tlen => Sys2Proof.Machine.execAlloc klen tlen s
  | .init => Sys2Proof.Machine.execInit s
  | .setIv dir => Sys2Proof.Machine.execSetIv dir s
  | .process dir => Sys2Proof.Machine.execProcess dir s
  | .dealloc => Sys2Proof.Machine.execDealloc s
  | .getDesc => Sys2Proof.Machine.execGetDesc s
  | .selfTest => Sys2Proof.Machine.execSelfTest s

end Sys2Proof.Machine
end

