-- ==== Sys2Proof/Machine/Step.lean ====
section
/-!
DEFINITION. One step of the machine: the next event of the command port (00_scope.md R11, 20_memory.md R61).
-/

namespace Sys2Proof.Machine

/-- Run a command word on a state that has taken its operands: the decoded instruction, or the answer to an ILLEGAL
word (30_encoding.md R74). -/
def runWord (w : Word) (s : State) : Host.Outcome State Fault Refusal :=
  match decode w with
  | .ok i => exec i s
  | .error _ => execIllegal s

/-- One step takes the next event of the port: a command, run as one atomic transition and then retired
(20_memory.md R57); a reset (70_reset_and_hazards.md R230); or, with nothing delivered, none, and the state persists
(60_exceptions.md R214, log 1). -/
def step (s : State) : Host.Outcome State Fault Refusal :=
  match s.inbox with
  | [] => .next s
  | .reset :: rest => .next (s.takeReset rest)
  | .command c :: rest => retireOutcome (runWord c.cmd (s.takeCommand c rest))

/-- `s` with the instruction's bits where the next step fetches its command word (log 2). -/
def State.withFetchWord (s : State) (nbits w : Nat) : State :=
  { s with inbox := placeWord (wordOfTable nbits w) s.inbox }

end Sys2Proof.Machine
end

