-- ==== Sys2Proof/Machine/Assembler.lean ====
section
/-!
DEFINITION. The assembler syntax of 30_encoding.md R79 with the pseudo-commands of R80: one line to the command word
and DATA the host puts on the port. The engine itself never reads a line; no step uses this file. What R79 leaves open
of the lexical form is fixed in log 15.
-/

namespace Sys2Proof.Machine

/-- A blank between tokens. -/
def isBlank (c : Char) : Bool := c = ' ' || c = '\t'

/-- The line without its comment: a `;` starts one (R79). -/
def dropComment (line : List Char) : List Char := line.takeWhile (· ≠ ';')

/-- Leading blanks removed. -/
def trimLeft (cs : List Char) : List Char := cs.dropWhile isBlank

/-- Blanks removed at both ends. -/
def trimBlanks (cs : List Char) : List Char := (trimLeft (trimLeft cs).reverse).reverse

/-- The mnemonic of a line and what follows it. -/
def splitMnemonic (line : List Char) : List Char × List Char :=
  ((trimLeft line).takeWhile (!isBlank ·), trimBlanks ((trimLeft line).dropWhile (!isBlank ·)))

/-- The value of a hexadecimal digit. -/
def hexDigit (c : Char) : Option Nat :=
  if '0' ≤ c ∧ c ≤ '9' then some (c.toNat - '0'.toNat)
  else if 'a' ≤ c ∧ c ≤ 'f' then some (c.toNat - 'a'.toNat + 10)
  else if 'A' ≤ c ∧ c ≤ 'F' then some (c.toNat - 'A'.toNat + 10)
  else none

/-- A number of the given base, most significant digit first; the empty string is none. -/
def numberIn (base : Nat) (cs : List Char) : Option Nat :=
  if cs = [] then none
  else
    cs.foldl (fun acc c =>
      match acc, hexDigit c with
      | some n, some d => if d < base then some (n * base + d) else none
      | _, _ => none) (some 0)

/-- A length operand: decimal or 0x-hex, 0 to 255 (R79). -/
def lengthOperand (cs : List Char) : Option Nat :=
  let value :=
    match trimBlanks cs with
    | '0' :: 'x' :: digits => numberIn 16 digits
    | digits => numberIn 10 digits
  value.bind fun n => if n < 256 then some n else none

/-- The bytes of pairs of hex digits. -/
def hexPairs : List Char → Option (List Byte)
  | [] => some []
  | hi :: lo :: rest =>
    match hexDigit hi, hexDigit lo, hexPairs rest with
    | some h, some l, some bs => some (BitVec.ofNat 8 (16 * h + l) :: bs)
    | _, _, _ => none
  | [_] => none

/-- A byte string operand: hex bytes, most significant first, that may contain spaces; the empty string is written as
two quotation marks (R79). -/
def bytesOperand (cs : List Char) : Option (List Byte) :=
  if cs = ['"', '"'] then some []
  else if cs = [] then none
  else hexPairs (cs.filter (!isBlank ·))

/-- The operands of ALLOC: `klen`, and `tlen`, which defaults to 0 (R79). -/
def allocOperands (cs : List Char) : Option (Nat × Nat) :=
  let klen := cs.takeWhile (· ≠ ',')
  match cs.dropWhile (· ≠ ',') with
  | [] => (lengthOperand klen).map (·, 0)
  | _ :: tlen =>
    match lengthOperand klen, lengthOperand tlen with
    | some k, some t => some (k, t)
    | _, _ => none

/-- A command with no operand. -/
def noOperand (i : Instr) (cs : List Char) : Option (Instr × List Byte) :=
  if cs = [] then some (i, []) else none

/-- A command whose operand is its DATA. -/
def dataOperand (i : Instr) (cs : List Char) : Option (Instr × List Byte) := (bytesOperand cs).map (i, ·)

/-- The instruction and DATA of a line (R79, R80). -/
def parseLine (line : List Char) : Option (Instr × List Byte) :=
  let m := (splitMnemonic (dropComment line)).1
  let arg := (splitMnemonic (dropComment line)).2
  if m = "ALLOC".toList then (allocOperands arg).map fun k => (.alloc k.1 k.2, [])
  else if m = "INIT".toList then dataOperand .init arg
  else if m = "SET_IV.ENC".toList then dataOperand (.setIv .encrypt) arg
  else if m = "SET_IV.DEC".toList then dataOperand (.setIv .decrypt) arg
  else if m = "PROCESS.ENC".toList then dataOperand (.process .encrypt) arg
  else if m = "PROCESS.DEC".toList then dataOperand (.process .decrypt) arg
  else if m = "DEALLOC".toList then noOperand .dealloc arg
  else if m = "GET_DESC".toList then noOperand .getDesc arg
  else if m = "SELF_TEST".toList then noOperand .selfTest arg
  else if m = "SET_IV".toList then dataOperand PseudoCommand.setIv.expand arg
  else if m = "PROCESS".toList then dataOperand PseudoCommand.process.expand arg
  else if m = "ENCRYPT".toList then dataOperand PseudoCommand.encrypt.expand arg
  else if m = "DECRYPT".toList then dataOperand PseudoCommand.decrypt.expand arg
  else if m = "ALLOC.AES128".toList then noOperand PseudoCommand.allocAes128.expand arg
  else if m = "ALLOC.AES192".toList then noOperand PseudoCommand.allocAes192.expand arg
  else if m = "ALLOC.AES256".toList then noOperand PseudoCommand.allocAes256.expand arg
  else none

/-- The command a line puts on the port: the command word (R73) and DATA. -/
def assembleLine (line : String) : Option (Word × List Byte) :=
  (parseLine line.toList).map fun p => (encode p.1, p.2)

end Sys2Proof.Machine
end

