-- ==== Sys2Proof/Safety.lean ====
section
/-!
DEFINITION. The terms the statements use: the invariants of 10_state.md R29 (with R24, R25 and 41_counter_derivation.md
R134), the runs of the machine, the legality table of 43_lifecycle_selftest.md R170, and what it means for a
known-answer test to pass (R171).
-/

namespace Sys2Proof.Machine

/-- The invariants of every reachable state's registers. -/
structure EngineInv (e : Engine) : Prop where
  /-- R29 item 1, with the class of R24 -/
  unalloc_zero : e.lc = .unalloc →
    e.kclass = none ∧ e.key = zeroKey ∧ e.offset = 0 ∧ e.counter = 0 ∧ e.prim.seeded = false
  /-- R29 item 2 -/
  alloc_zero : e.lc = .alloc →
    e.key = zeroKey ∧ e.offset = 0 ∧ e.counter = 0 ∧ e.prim.seeded = false
  /-- R29 item 3 -/
  seeded_iff : e.prim.seeded = true ↔ e.lc = .ivset ∨ e.lc = .processed
  /-- R29 item 4 -/
  seeded_snapshot : e.prim.seeded = true →
    e.prim.pkclass = e.kclass ∧ e.prim.pkey = e.key ∧ e.prim.pctr0 = e.counter
  /-- R29 item 5 -/
  unseeded_zero : e.prim.seeded = false →
    e.prim.pkclass = none ∧ e.prim.pkey = zeroKey ∧ e.prim.pctr0 = 0 ∧ e.prim.kspos = 0
  /-- R29 item 6 -/
  offset_low : blockCounter e.offset = 0
  /-- R29 item 7 -/
  ivset_start : e.lc = .ivset → e.prim.kspos = 0
  /-- R24 -/
  kclass_none_iff : e.kclass = none ↔ e.lc = .unalloc
  /-- R25 -/
  key_tail_zero : ∀ c, e.kclass = some c → ∀ i : Fin 32, keyLen c ≤ i.val → e.key[i] = 0
  /-- R134, by 40_context_store.md R101 -/
  aes192_enabled : e.kclass = some .aes192 → Config.aes192Enabled = true

/-- The invariant of the whole machine between commands: the registers', and no operand left on the port. -/
structure Inv (s : State) : Prop where
  engine : EngineInv s.eng
  data_gone : s.data = []
  draws_gone : s.draws = Draws.free

/-- A state the machine can be in: after reset, after the host delivers an event, after a step. -/
inductive Reachable : State → Prop where
  | reset : Reachable State.reset
  | deliver {s : State} (ev : PortEvent) : Reachable s → Reachable (s.deliver ev)
  | step {s t : State} : Reachable s → step s = .next t → Reachable t

/-- What a run takes from the port, oldest first, with the response each event got. -/
abbrev History := List (PortEvent × Option Response)

/-- `RunTo s h t`: from `s`, taking the events of `h` in order and answering as `h` says, the machine comes to `t`. The
host may deliver further events at any point. -/
inductive RunTo (s : State) : History → State → Prop where
  | start : RunTo s [] s
  | deliver {h : History} {t : State} (ev : PortEvent) : RunTo s h t → RunTo s h (t.deliver ev)
  | take {h : History} {t u : State} {ev : PortEvent} {rest : List PortEvent} :
      RunTo s h t → t.inbox = ev :: rest → step t = .next u → RunTo s (h ++ [(ev, u.resp)]) u

/-- A history entry that is the given instruction, answered with the given status. -/
def Answered (p : Instr → Bool) (st : Status) (x : PortEvent × Option Response) : Prop :=
  ∃ c i r, x.1 = .command c ∧ decode c.cmd = .ok i ∧ p i = true ∧ x.2 = some r ∧ r.status = st

/-- A history entry after which a seeded context is gone (70_reset_and_hazards.md R233): a reset, an INIT or DEALLOC
answered OK, or any CIPHER_FAILURE. -/
def EndsSeeding (x : PortEvent × Option Response) : Prop :=
  x.1 = .reset ∨ Answered (fun i => i = .init ∨ i = .dealloc) .ok x ∨ Answered (fun _ => true) .cipherFailure x

/-- A history entry after which no context is allocated (70_reset_and_hazards.md R233, 43_lifecycle_selftest.md R170): a
reset, or a DEALLOC answered OK. -/
def EndsContext (x : PortEvent × Option Response) : Prop :=
  x.1 = .reset ∨ Answered (fun i => i = .dealloc) .ok x

/-- Whether an instruction is an ALLOC. -/
def isAlloc : Instr → Bool
  | .alloc _ _ => true
  | .init => false
  | .setIv _ => false
  | .process _ => false
  | .dealloc => false
  | .getDesc => false
  | .selfTest => false

/-- Whether an instruction is a SET_IV. -/
def isSetIv : Instr → Bool
  | .setIv _ => true
  | .alloc _ _ => false
  | .init => false
  | .process _ => false
  | .dealloc => false
  | .getDesc => false
  | .selfTest => false

/-- Whether an instruction is a PROCESS. -/
def isProcess : Instr → Bool
  | .process _ => true
  | .alloc _ _ => false
  | .init => false
  | .setIv _ => false
  | .dealloc => false
  | .getDesc => false
  | .selfTest => false

/-- The table of 43_lifecycle_selftest.md R170: the `LC` an instruction leaves when it answers OK, by its row, or none
where the table says IS. -/
def lcAfterOk : Lifecycle → Instr → Option Lifecycle
  | .unalloc, .alloc _ _ => some .alloc
  | .unalloc, .init => none
  | .unalloc, .setIv _ => none
  | .unalloc, .process _ => none
  | .unalloc, .selfTest => some .unalloc
  | .alloc, .alloc _ _ => none
  | .alloc, .init => some .init
  | .alloc, .setIv _ => none
  | .alloc, .process _ => none
  | .alloc, .selfTest => none
  | .init, .alloc _ _ => none
  | .init, .init => some .init
  | .init, .setIv _ => some .ivset
  | .init, .process _ => none
  | .init, .selfTest => none
  | .ivset, .alloc _ _ => none
  | .ivset, .init => some .init
  | .ivset, .setIv _ => some .ivset
  | .ivset, .process _ => some .processed
  | .ivset, .selfTest => none
  | .processed, .alloc _ _ => none
  | .processed, .init => some .init
  | .processed, .setIv _ => some .ivset
  | .processed, .process _ => some .processed
  | .processed, .selfTest => none
  | _, .dealloc => some .unalloc
  | lc, .getDesc => some lc

/-- The primitive a class's known-answer test seeds, straight from the fixture: the fixture's key over zeros, and the
salt block XOR the nonce (43_lifecycle_selftest.md R171, 40_context_store.md R104, R105). -/
def fixturePrimitive (c : KeyClass) (f : KnownAnswer) : Primitive where
  seeded := true
  pkclass := some c
  pkey := Vector.ofFn fun i => if i.val < keyLen c then f.keySalt.getD i.val 0 else 0
  pctr0 := be128 ((f.keySalt.drop (keyLen c)).take 14 ++ [0, 0]) ^^^ be128 f.nonce
  kspos := 0

/-- A class passes its known-answer test with allocation draw `a` and primitive draws from `p` on
(43_lifecycle_selftest.md R171). -/
structure Passes (s : State) (a p : Nat) (c : KeyClass) (f : KnownAnswer) : Prop where
  key_salt_length : f.keySalt.length = totalLen c
  nonce_length : f.nonce.length = 16
  ct_length : f.ct.length = f.pt.length
  alloc_ok : s.allocOk a = true
  init_ok : s.primOk p = true
  update_ok : f.pt ≠ [] → s.primOk (p + 1) = true
  output : ∀ (j : Nat) (b : Byte), f.pt[j]? = some b →
    f.ct[j]? = some (b ^^^ ksByte Config.ctrIncWidth (fixturePrimitive c f) j)

/-- How many primitive draws the classes of a list take: one for each SET_IV, one for each PROCESS of a nonempty buffer
(43_lifecycle_selftest.md R171, 92_eei_decisions.md D10). -/
def primDraws : List (KeyClass × KnownAnswer) → Nat
  | [] => 0
  | (_, f) :: rest => (if f.pt = [] then 1 else 2) + primDraws rest

end Sys2Proof.Machine
end

