-- ==== Sys2Proof/Certificates/Slice0/Obligations.lean ====
section
/-!
DEFINITION. The statements for the provers. Each formalises the rules its entry of OBLIGATIONS.json cites.
-/

open Sys2Proof Sys2Proof.Machine

/-! ## Command words -/

/-- The decode vectors W1 to W16 of 95_test_vectors.md, and one word of every other command. -/
def Obligations.DecodeReadsSpecWords : Prop :=
  decodeTableWord 32 0x00000000 = none ∧
  decodeTableWord 32 0x00000001 = some (.alloc 0 0) ∧
  decodeTableWord 32 0x00001E01 = some (.alloc 30 0) ∧
  decodeTableWord 32 0x00FF1E01 = some (.alloc 30 255) ∧
  decodeTableWord 32 0x00001E11 = none ∧
  decodeTableWord 32 0x00000002 = some .init ∧
  decodeTableWord 32 0x00000003 = some (.setIv .encrypt) ∧
  decodeTableWord 32 0x00000013 = some (.setIv .decrypt) ∧
  decodeTableWord 32 0x00000023 = none ∧
  decodeTableWord 32 0x00000102 = none ∧
  decodeTableWord 32 0x80000004 = none ∧
  decodeTableWord 32 0x00000014 = some (.process .decrypt) ∧
  decodeTableWord 32 0x00000005 = some .dealloc ∧
  decodeTableWord 32 0x00000015 = none ∧
  decodeTableWord 32 0x00000006 = some .getDesc ∧
  decodeTableWord 32 0x00000007 = some .selfTest ∧
  decodeTableWord 32 0x00000008 = none ∧
  decodeTableWord 32 0x0000000F = none ∧
  decodeTableWord 32 0x10000002 = none ∧
  decodeTableWord 32 0x01000007 = none ∧
  decodeTableWord 32 0x00000017 = none

/-- R71, R73: the decoder reads back every well-formed instruction from its word, so no bit of an encoding is
dropped. -/
def Obligations.DecodeEncodeIsIdentity : Prop :=
  ∀ i : Instr, WellFormed i → decode (encode i) = .ok i

/-- R71, R73: the word of a decoded instruction is the word it was decoded from, so every instruction has one word. -/
def Obligations.EncodeDecodeIsIdentity : Prop :=
  ∀ (w : Word) (i : Instr), decode w = .ok i → WellFormed i ∧ encode i = w

/-- R73: a word selects a command exactly when, masked, it equals that command's match, and its variable fields are
the operands; so at most one row matches. -/
def Obligations.DecodeByMatchAndMask : Prop :=
  ∀ w : Word,
    (∀ klen tlen, decode w = .ok (.alloc klen tlen) ↔
      w &&& 0xFF0000FF = 0x00000001 ∧
        klen = w.toNat / 2 ^ 8 % 256 ∧ tlen = w.toNat / 2 ^ 16 % 256) ∧
    (decode w = .ok .init ↔ w &&& 0xFFFFFFFF = 0x00000002) ∧
    (∀ dir, decode w = .ok (.setIv dir) ↔
      w &&& 0xFFFFFFEF = 0x00000003 ∧ (dir = .decrypt ↔ w.getLsbD 4 = true)) ∧
    (∀ dir, decode w = .ok (.process dir) ↔
      w &&& 0xFFFFFFEF = 0x00000004 ∧ (dir = .decrypt ↔ w.getLsbD 4 = true)) ∧
    (decode w = .ok .dealloc ↔ w &&& 0xFFFFFFFF = 0x00000005) ∧
    (decode w = .ok .getDesc ↔ w &&& 0xFFFFFFFF = 0x00000006) ∧
    (decode w = .ok .selfTest ↔ w &&& 0xFFFFFFFF = 0x00000007)

/-- R74: the decoder is total, and a word that matches no row of R73 (a reserved opcode, or a valid opcode with a
reserved bit set; the all-zero word among them) leaves the registers unchanged and answers ILLEGAL_COMMAND with no
data. What the step leaves in the port's other fields is the model's choice (the queue: log 1; the serial number: log 3;
the operands gone: log 9). -/
def Obligations.IllegalWordAnswersIllegalCommand : Prop :=
  (∀ w : Word,
    (∃ why, decode w = .error why) ↔
      w &&& 0xFF0000FF ≠ 0x00000001 ∧ w ≠ 0x00000002 ∧ w &&& 0xFFFFFFEF ≠ 0x00000003 ∧
      w &&& 0xFFFFFFEF ≠ 0x00000004 ∧ w ≠ 0x00000005 ∧ w ≠ 0x00000006 ∧ w ≠ 0x00000007) ∧
  (∀ w : Word, (w &&& 0xF = 0 ∨ 8 ≤ (w &&& 0xF).toNat ∨ w &&& 0xFF0000E0 ≠ 0) → ∃ why, decode w = .error why) ∧
  (∃ why, decode 0 = .error why) ∧
  (∀ (s : State) (c : Command) (rest : List PortEvent) (why : Illegal),
    s.inbox = .command c :: rest → decode c.cmd = .error why →
      step s = .next { s with inbox := rest, data := [], draws := Draws.free, serial := s.serial + 1,
                              resp := some ⟨.illegalCommand, []⟩ })

/-- R80: the command word of every pseudo-command's expansion, and the command it decodes to. -/
def Obligations.PseudoCommandWords : Prop :=
  encode (PseudoCommand.setIv.expand) = 0x00000003 ∧
  encode (PseudoCommand.process.expand) = 0x00000004 ∧
  encode (PseudoCommand.encrypt.expand) = 0x00000004 ∧
  encode (PseudoCommand.decrypt.expand) = 0x00000014 ∧
  encode (PseudoCommand.allocAes128.expand) = 0x00001E01 ∧
  encode (PseudoCommand.allocAes192.expand) = 0x00002601 ∧
  encode (PseudoCommand.allocAes256.expand) = 0x00002E01 ∧
  ∀ p : PseudoCommand, decode (encode p.expand) = .ok p.expand

/-- R79, R80: lines of every form and the commands they put on the port. -/
def Obligations.AssemblerReadsLines : Prop :=
  assembleLine "ALLOC 30" = some (0x00001E01, []) ∧
  assembleLine "ALLOC 0x1e, 255 ; AES-128" = some (0x00FF1E01, []) ∧
  assembleLine "ALLOC 256" = none ∧
  assembleLine "ALLOC.AES256" = some (0x00002E01, []) ∧
  assembleLine "INIT 2b7e 15" = some (0x00000002, [0x2b, 0x7e, 0x15]) ∧
  assembleLine "SET_IV 00ff" = some (0x00000003, [0x00, 0xff]) ∧
  assembleLine "SET_IV.DEC 00ff" = some (0x00000013, [0x00, 0xff]) ∧
  assembleLine "PROCESS \"\"" = some (0x00000004, []) ∧
  assembleLine "ENCRYPT 616263" = some (0x00000004, [0x61, 0x62, 0x63]) ∧
  assembleLine "DECRYPT 616263" = some (0x00000014, [0x61, 0x62, 0x63]) ∧
  assembleLine "DEALLOC" = some (0x00000005, []) ∧
  assembleLine "GET_DESC" = some (0x00000006, []) ∧
  assembleLine "SELF_TEST ; at boot" = some (0x00000007, [])

/-! ## The port and reset -/

/-- A step at a command that decodes to `i` is `exec i` on the state that has taken the command from the port, after
which the operands are gone from the port. The latching of operands and the serial number are the model's (logs 3, 9). -/
def Obligations.StepRunsDecodedInstruction : Prop :=
  ∀ (s : State) (c : Command) (rest : List PortEvent) (i : Instr),
    s.inbox = .command c :: rest → decode c.cmd = .ok i →
      ∃ t, exec i { s with inbox := rest, data := c.data, draws := c.draws, resp := none,
                           serial := s.serial + 1 } = .next t ∧
        step s = .next { t with data := [], draws := Draws.free }

/-- The word that `withFetchWord` places is the one the next step runs: on a port with nothing delivered, the step is
the decoded instruction's with no DATA (the model's own interface: log 2). -/
def Obligations.PlacedWordRunsNext : Prop :=
  ∀ (s : State) (w : Word) (i : Instr),
    s.inbox = [] → decode w = .ok i →
      ∃ t, exec i { s with data := [], draws := Draws.free, resp := none, serial := s.serial + 1 } = .next t ∧
        step (s.withFetchWord 32 w.toNat) = .next { t with data := [], draws := Draws.free }

/-- R230: the reset event, taken between commands, sets every register to its reset value and answers nothing. That the
events behind it stay on the port is the model's choice (log 1), and that no response is left in `resp` its reading
(log 9). -/
def Obligations.ResetEventZeroesEveryRegister : Prop :=
  ∀ (s : State) (rest : List PortEvent), s.inbox = .reset :: rest →
    ∃ t, step s = .next t ∧
      t.eng.lc = .unalloc ∧ t.eng.kclass = none ∧ t.eng.key = Vector.replicate 32 0 ∧
      t.eng.offset = 0 ∧ t.eng.counter = 0 ∧
      t.eng.prim.seeded = false ∧ t.eng.prim.pkclass = none ∧ t.eng.prim.pkey = Vector.replicate 32 0 ∧
      t.eng.prim.pctr0 = 0 ∧ t.eng.prim.kspos = 0 ∧
      t.resp = none ∧ t.inbox = rest

/-- R34: the value of every register after reset, and the same after any DEALLOC and after any SELF_TEST that the
lifecycle admits. -/
def Obligations.ResetRegisterValues : Prop :=
  State.reset.eng =
    { lc := .unalloc, kclass := none, key := Vector.replicate 32 0, offset := 0, counter := 0
      prim := { seeded := false, pkclass := none, pkey := Vector.replicate 32 0, pctr0 := 0, kspos := 0 } } ∧
  (∀ s t : State, exec .dealloc s = .next t → t.eng = State.reset.eng) ∧
  (∀ s t : State, s.eng.lc = .unalloc → exec .selfTest s = .next t → t.eng = State.reset.eng)

/-! ## Class functions, blocks and derivations -/

/-- R7: the key and key-plus-salt lengths of the three classes. The last clause is the spec's inference from the table
(R7: "`TOTAL(c) = K(c) + 14` for every class"). -/
def Obligations.ClassLengths : Prop :=
  keyLen .aes128 = 16 ∧ totalLen .aes128 = 30 ∧ keyLen .aes192 = 24 ∧ totalLen .aes192 = 38 ∧
  keyLen .aes256 = 32 ∧ totalLen .aes256 = 46 ∧ ∀ c : KeyClass, totalLen c = keyLen c + 14

/-- R101: the class of a key-plus-salt length, with and without AES-192. -/
def Obligations.ClassOfLength : Prop :=
  ∀ (enabled : Bool) (len : Nat),
    (classOf enabled len = some .aes128 ↔ len = 30) ∧
    (classOf enabled len = some .aes192 ↔ len = 38 ∧ enabled = true) ∧
    (classOf enabled len = some .aes256 ↔ len = 46) ∧
    (classOf enabled len = none ↔ len ≠ 30 ∧ (len = 38 → enabled = false) ∧ len ≠ 46)

/-- R9, R51: a 16-byte string is a big-endian block: byte `i` is bits `[127-8i : 120-8i]`, and `be128` and `bytes16`
are inverse. -/
def Obligations.BlocksAreBigEndian : Prop :=
  (∀ s : List Byte, s.length = 16 →
    (∀ (i : Nat) (b : Byte), s[i]? = some b → (be128 s).extractLsb' (120 - 8 * i) 8 = b) ∧
    bytes16 (be128 s) = s) ∧
  (∀ b : Block, (bytes16 b).length = 16 ∧ be128 (bytes16 b) = b)

/-- R104: the salt block is the salt in bytes 0 to 13 and zero in bytes 14 and 15, which is the salt read big-endian
and shifted left by 16. -/
def Obligations.SaltBlockMasksLowBits : Prop :=
  ∀ salt : List Byte, salt.length = 14 →
    bytes16 (saltBlock salt) = salt ++ [0, 0] ∧
    saltBlock salt = be128 (salt ++ [0, 0]) ∧
    (saltBlock salt).toNat = salt.foldl (fun n b => n * 256 + b.toNat) 0 * 2 ^ 16 ∧
    (saltBlock salt).extractLsb' 0 16 = 0

/-- R131: the counter derivation is the full 128-bit XOR of offset and nonce, byte by byte. -/
def Obligations.DeriveCounterIsBytewiseXor : Prop :=
  ∀ (offset : Block) (nonce : List Byte), nonce.length = 16 →
    deriveCounter offset nonce = offset ^^^ be128 nonce ∧
    ∀ (i : Nat) (b : Byte), nonce[i]? = some b →
      blockByte (deriveCounter offset nonce) i = blockByte offset i ^^^ b

/-! ## ALLOC -/

/-- R100: ALLOC's encoding and its four answers, in the order of its checks. A success writes every register; an error
writes none; `TLEN` plays no part. -/
def Obligations.AllocBindsClass : Prop :=
  (∀ w : Word, w &&& 0xFF0000FF = 0x00000001 ↔ ∃ klen tlen, decode w = .ok (.alloc klen tlen)) ∧
  ∀ (s : State) (klen tlen : Nat),
    (s.eng.lc ≠ .unalloc →
      exec (.alloc klen tlen) s = .next { s with resp := some ⟨.invalidState, []⟩ }) ∧
    (s.eng.lc = .unalloc → klen ≠ 30 → (klen = 38 → Config.aes192Enabled = false) → klen ≠ 46 →
      exec (.alloc klen tlen) s = .next { s with resp := some ⟨.invalidParameter, []⟩ }) ∧
    (∀ c, s.eng.lc = .unalloc →
      (klen = 30 ∧ c = .aes128) ∨ (klen = 38 ∧ Config.aes192Enabled = true ∧ c = .aes192) ∨
        (klen = 46 ∧ c = .aes256) →
      (s.allocOk 0 = false →
        exec (.alloc klen tlen) s = .next { s with resp := some ⟨.allocationFailure, []⟩ }) ∧
      (s.allocOk 0 = true →
        exec (.alloc klen tlen) s = .next
          { s with
            eng := { lc := .alloc, kclass := some c, key := Vector.replicate 32 0, offset := 0, counter := 0
                     prim := { seeded := false, pkclass := none, pkey := Vector.replicate 32 0
                               pctr0 := 0, kspos := 0 } }
            resp := some ⟨.ok, []⟩ }))

/-! ## INIT -/

/-- R103: INIT's encoding and its three answers. A success loads the key bytes, makes offset and counter the masked salt block,
unseeds the primitive and leaves the class and every other key byte as they were. -/
def Obligations.InitLoadsKeyAndSalt : Prop :=
  (∀ w : Word, w &&& 0xFFFFFFFF = 0x00000002 ↔ decode w = .ok .init) ∧
  ∀ s : State,
    (s.eng.lc = .unalloc → exec .init s = .next { s with resp := some ⟨.invalidState, []⟩ }) ∧
    (∀ c, s.eng.lc ≠ .unalloc → s.eng.kclass = some c → s.data.length < keyLen c + 14 →
      exec .init s = .next { s with resp := some ⟨.invalidParameter, []⟩ }) ∧
    (∀ c, s.eng.lc ≠ .unalloc → s.eng.kclass = some c → keyLen c + 14 ≤ s.data.length →
      ∃ (block : Block) (key : KeyStore),
        exec .init s = .next
          { s with
            eng := { lc := .init, kclass := some c, key := key, offset := block, counter := block
                     prim := { seeded := false, pkclass := none, pkey := Vector.replicate 32 0
                               pctr0 := 0, kspos := 0 } }
            resp := some ⟨.ok, []⟩ } ∧
        bytes16 block = (s.data.drop (keyLen c)).take 14 ++ [0, 0] ∧
        (∀ i : Fin 32, i.val < keyLen c → s.data[i.val]? = some key[i]) ∧
        (∀ i : Fin 32, keyLen c ≤ i.val → key[i] = s.eng.key[i]))

/-- R105: the two key slots after an INIT of each class, from a context whose key store is zero beyond the class's
key, as R25 says it is. -/
def Obligations.InitFillsKeySlots : Prop :=
  ∀ (s : State) (c : KeyClass), s.eng.lc ≠ .unalloc → s.eng.kclass = some c → totalLen c ≤ s.data.length →
    (∀ i : Fin 32, keyLen c ≤ i.val → s.eng.key[i] = 0) →
    ∃ t, exec .init s = .next t ∧ t.resp = some ⟨.ok, []⟩ ∧
      t.eng.key.toList.take 16 = s.data.take 16 ∧
      (c = .aes128 → t.eng.key.toList.drop 16 = List.replicate 16 0) ∧
      (c = .aes192 → t.eng.key.toList.drop 16 = (s.data.drop 16).take 8 ++ List.replicate 8 0) ∧
      (c = .aes256 → t.eng.key.toList.drop 16 = (s.data.drop 16).take 16)

/-! ## DEALLOC -/

/-- R106: DEALLOC's encoding; it answers OK in every state and leaves every register zero. -/
def Obligations.DeallocZeroizes : Prop :=
  (∀ w : Word, w &&& 0xFFFFFFFF = 0x00000005 ↔ decode w = .ok .dealloc) ∧
  ∀ s : State,
    exec .dealloc s = .next
      { s with
        eng := { lc := .unalloc, kclass := none, key := Vector.replicate 32 0, offset := 0, counter := 0
                 prim := { seeded := false, pkclass := none, pkey := Vector.replicate 32 0
                           pctr0 := 0, kspos := 0 } }
        resp := some ⟨.ok, []⟩ }

/-! ## SET_IV -/

/-- R130: SET_IV's encoding and its four answers. The counter becomes offset XOR nonce, also when the primitive's init fails; a success
seeds the primitive with class, key and counter. -/
def Obligations.SetIvDerivesAndSeeds : Prop :=
  (∀ w : Word, w &&& 0xFFFFFFEF = 0x00000003 ↔ ∃ dir, decode w = .ok (.setIv dir)) ∧
  ∀ (s : State) (dir : Direction),
    (s.eng.lc = .unalloc ∨ s.eng.lc = .alloc →
      exec (.setIv dir) s = .next { s with resp := some ⟨.invalidState, []⟩ }) ∧
    (s.eng.lc = .init ∨ s.eng.lc = .ivset ∨ s.eng.lc = .processed → s.data.length < 16 →
      exec (.setIv dir) s = .next { s with resp := some ⟨.invalidParameter, []⟩ }) ∧
    (s.eng.lc = .init ∨ s.eng.lc = .ivset ∨ s.eng.lc = .processed → 16 ≤ s.data.length → s.primOk 0 = false →
      exec (.setIv dir) s = .next
        { s with
          eng := { s.eng with
                   lc := .init
                   counter := s.eng.offset ^^^ be128 (s.data.take 16)
                   prim := { seeded := false, pkclass := none, pkey := Vector.replicate 32 0
                             pctr0 := 0, kspos := 0 } }
          resp := some ⟨.cipherFailure, []⟩ }) ∧
    (s.eng.lc = .init ∨ s.eng.lc = .ivset ∨ s.eng.lc = .processed → 16 ≤ s.data.length → s.primOk 0 = true →
      exec (.setIv dir) s = .next
        { s with
          eng := { s.eng with
                   lc := .ivset
                   counter := s.eng.offset ^^^ be128 (s.data.take 16)
                   prim := { seeded := true, pkclass := s.eng.kclass, pkey := s.eng.key
                             pctr0 := s.eng.offset ^^^ be128 (s.data.take 16), kspos := 0 } }
          resp := some ⟨.ok, []⟩ })

/-- The spec's inference R132 from R130 and R131: SET_IV commands that succeed with the same nonce from states with equal offset, class and key leave equal
counter and primitive, hence equal keystreams; and a SET_IV that derives a counter leaves nothing of the old one. -/
def Obligations.SetIvIsDeterminedByContextAndNonce : Prop :=
  (∀ (s s' t t' : State) (dir dir' : Direction),
    s.eng.offset = s'.eng.offset → s.eng.kclass = s'.eng.kclass → s.eng.key = s'.eng.key →
    s.data.take 16 = s'.data.take 16 →
    exec (.setIv dir) s = .next t → t.resp = some ⟨.ok, []⟩ →
    exec (.setIv dir') s' = .next t' → t'.resp = some ⟨.ok, []⟩ →
      t.eng.counter = t'.eng.counter ∧ t.eng.prim = t'.eng.prim ∧
      ∀ k w draw j, keystream k w t.eng.prim draw j = keystream k w t'.eng.prim draw j) ∧
  (∀ (s : State) (dir : Direction) (old : Block),
    s.eng.lc = .init ∨ s.eng.lc = .ivset ∨ s.eng.lc = .processed → 16 ≤ s.data.length →
      exec (.setIv dir) { s with eng := { s.eng with counter := old } } = exec (.setIv dir) s)

/-- R133: SET_IV with direction 0 (word 0x00000003) and with direction 1 (word 0x00000013) write the same state and
return the same response. -/
def Obligations.SetIvIgnoresDirection : Prop :=
  ∀ (s : State) (data : List Byte) (d : Draws) (rest : List PortEvent),
    step { s with inbox := .command ⟨0x00000003, data, d⟩ :: rest } =
      step { s with inbox := .command ⟨0x00000013, data, d⟩ :: rest }

/-- The spec's inference R135 from R131: the low 16 bits of the derived counter are the nonce's, where the offset's are
zero, as R26 says they always are. -/
def Obligations.SetIvTakesLowBitsFromNonce : Prop :=
  ∀ (s : State) (dir : Direction),
    s.eng.offset.extractLsb' 0 16 = 0 →
    s.eng.lc = .init ∨ s.eng.lc = .ivset ∨ s.eng.lc = .processed → 16 ≤ s.data.length →
      ∃ t, exec (.setIv dir) s = .next t ∧
        t.eng.counter.extractLsb' 0 16 = (be128 (s.data.take 16)).extractLsb' 0 16

/-! ## PROCESS -/

/-- R150: PROCESS's encoding and its five answers. A success returns the buffer XOR the keystream, byte by byte, advances `KSPOS` by the
buffer's length and writes `LC` and nothing else. -/
def Obligations.ProcessXorsKeystream : Prop :=
  (∀ w : Word, w &&& 0xFFFFFFEF = 0x00000004 ↔ ∃ dir, decode w = .ok (.process dir)) ∧
  ∀ (s : State) (dir : Direction),
    (s.eng.lc = .unalloc ∨ s.eng.lc = .alloc ∨ s.eng.lc = .init →
      exec (.process dir) s = .next { s with resp := some ⟨.invalidState, []⟩ }) ∧
    (s.eng.lc = .ivset ∨ s.eng.lc = .processed → Config.maxDataLen < s.data.length →
      exec (.process dir) s = .next { s with resp := some ⟨.invalidParameter, []⟩ }) ∧
    (s.eng.lc = .ivset ∨ s.eng.lc = .processed → s.data.length = 0 →
      exec (.process dir) s = .next
        { s with eng := { s.eng with lc := .processed }, resp := some ⟨.ok, []⟩ }) ∧
    (s.eng.lc = .ivset ∨ s.eng.lc = .processed → 0 < s.data.length → s.data.length ≤ Config.maxDataLen →
      s.primOk 0 = false →
      exec (.process dir) s = .next
        { s with
          eng := { s.eng with
                   lc := .init
                   prim := { seeded := false, pkclass := none, pkey := Vector.replicate 32 0
                             pctr0 := 0, kspos := 0 } }
          resp := some ⟨.cipherFailure, []⟩ }) ∧
    (s.eng.lc = .ivset ∨ s.eng.lc = .processed → 0 < s.data.length → s.data.length ≤ Config.maxDataLen →
      s.primOk 0 = true →
      ∃ out : List Byte, out.length = s.data.length ∧
        (∀ (j : Nat) (b : Byte), s.data[j]? = some b → out[j]? = some (b ^^^ s.ks j)) ∧
        exec (.process dir) s = .next
          { s with
            eng := { s.eng with
                     lc := .processed
                     prim := { s.eng.prim with kspos := s.eng.prim.kspos + s.data.length } }
            resp := some ⟨.ok, out⟩ })

/-- R150: PROCESS with direction 0 (ENCRYPT, word 0x00000004) and with direction 1 (DECRYPT, word 0x00000014) are one
operation. -/
def Obligations.ProcessIgnoresDirection : Prop :=
  ∀ (s : State) (data : List Byte) (d : Draws) (rest : List PortEvent),
    step { s with inbox := .command ⟨0x00000004, data, d⟩ :: rest } =
      step { s with inbox := .command ⟨0x00000014, data, d⟩ :: rest }

/-- R155: a PROCESS of no bytes, in IVSET or PROCESSED, answers OK with no data whatever the draws are, leaves `KSPOS`
and sets `LC` to PROCESSED. The last clause, that the next PROCESS sees the same keystream under every setting, is the
spec's inference from R152 (R155: "the choice changes no keystream"). -/
def Obligations.ProcessOfNothingSucceeds : Prop :=
  ∀ (s : State) (dir : Direction) (d : Draws),
    s.eng.lc = .ivset ∨ s.eng.lc = .processed → s.data = [] →
      ∃ t, exec (.process dir) { s with draws := d } = .next t ∧
        t.resp = some ⟨.ok, []⟩ ∧ t.eng.prim.kspos = s.eng.prim.kspos ∧ t.eng.lc = .processed ∧
        t = { s with draws := d, eng := { s.eng with lc := .processed }, resp := some ⟨.ok, []⟩ } ∧
        ∀ k w draw j, keystream k w t.eng.prim draw j = keystream k w s.eng.prim draw j

/-- R151: the counter increment of either width, which differ only once the low 16 bits overflow, the keystream blocks
and the keystream bytes of a seeded primitive. That blocks after the first encrypt incremented counters is general
knowledge by the spec's own mark (log 14). -/
def Obligations.KeystreamEncryptsSuccessiveCounters : Prop :=
  (∀ (c : Block) (b : Nat),
    (inc .w128 c b).toNat = (c.toNat + b) % 2 ^ 128 ∧
    (inc .w16 c b).extractLsb' 16 112 = c.extractLsb' 16 112 ∧
    ((inc .w16 c b).extractLsb' 0 16).toNat = ((c.extractLsb' 0 16).toNat + b) % 2 ^ 16) ∧
  (∀ (w : CtrIncWidth) (c : Block), inc w c 0 = c) ∧
  (∀ (c : Block) (b : Nat), inc .w16 c b ≠ inc .w128 c b → 2 ^ 16 ≤ (c.extractLsb' 0 16).toNat + b) ∧
  (∀ (w : CtrIncWidth) (p : Primitive) (c : KeyClass) (pos : Nat), p.pkclass = some c →
    (bytes16 (Config.aesEnc (some c) (p.pkey.toList.take (keyLen c)) (inc w p.pctr0 (pos / 16))))[pos % 16]? =
      some (ksByte w p pos))

/-- R152: where the keystream of a PROCESS starts, under each setting; the first PROCESS after a SET_IV has the same
keystream under all of them. -/
def Obligations.KeystreamStartFollowsContinuation : Prop :=
  (∀ (w : CtrIncWidth) (p : Primitive) (draw : Nat → Byte) (j : Nat),
    keystream .continuing w p draw j = ksByte w p (p.kspos + j) ∧
    keystream .restart w p draw j = ksByte w p j ∧
    (p.kspos = 0 → keystream .unspecified w p draw j = ksByte w p j) ∧
    (p.kspos ≠ 0 → keystream .unspecified w p draw j = draw j)) ∧
  (∀ (s : State) (j : Nat),
    s.ks j = keystream Config.ksContinuation Config.ctrIncWidth s.eng.prim s.ksDraw j ∧
    (∀ b, s.draws.ksBytes[j]? = some b → s.ksDraw j = b)) ∧
  (∀ (s t : State) (dir : Direction), exec (.setIv dir) s = .next t → t.resp = some ⟨.ok, []⟩ →
    ∀ k w draw j, keystream k w t.eng.prim draw j = ksByte w t.eng.prim j)

/-- The spec's inference R238 from R151: with a 16-bit increment the keystream of one seeding repeats after 1 048 576
bytes; with a 128-bit increment each overflow of the low 16 bits carries into the upper bits; and up to that point the
two widths give the same keystream. That block `b` encrypts the counter incremented by `b` is general knowledge by the
spec's own mark (log 14). -/
def Obligations.KeystreamWrapsAtSixteenBits : Prop :=
  ∀ (p : Primitive) (pos : Nat),
    ksByte .w16 p (pos + 1048576) = ksByte .w16 p pos ∧
    (∀ b : Nat, inc .w16 p.pctr0 (b + 2 ^ 16) = inc .w16 p.pctr0 b) ∧
    (∀ b : Nat, (inc .w128 p.pctr0 b).extractLsb' 16 112 =
      p.pctr0.extractLsb' 16 112 + BitVec.ofNat 112 (((p.pctr0.extractLsb' 0 16).toNat + b) / 2 ^ 16)) ∧
    (pos < 16 * (2 ^ 16 - (p.pctr0.extractLsb' 0 16).toNat) → ksByte .w16 p pos = ksByte .w128 p pos)

/-- The spec's inference R154 from R130, R150 and R152: encrypting and then, after a SET_IV with the same nonce, processing the result gives back the buffer, from any
two contexts with the same class, key and offset, whatever the directions, where the primitive's calls succeed: draw 0
of each command, the one of a PROCESS of no bytes excepted, which makes none. -/
def Obligations.EncryptThenDecryptRestoresBuffer : Prop :=
  ∀ (s s' : State) (w1 w2 w3 w4 : Word) (iv x : List Byte) (d1 d2 d3 d4 : Draws) (rest rest' : List PortEvent),
    (w1 = 0x00000003 ∨ w1 = 0x00000013) → (w2 = 0x00000004 ∨ w2 = 0x00000014) →
    (w3 = 0x00000003 ∨ w3 = 0x00000013) → (w4 = 0x00000004 ∨ w4 = 0x00000014) →
    (s.eng.lc = .init ∨ s.eng.lc = .ivset ∨ s.eng.lc = .processed) →
    (s'.eng.lc = .init ∨ s'.eng.lc = .ivset ∨ s'.eng.lc = .processed) →
    s.eng.kclass = s'.eng.kclass → s.eng.key = s'.eng.key → s.eng.offset = s'.eng.offset →
    iv.length = 16 → x.length ≤ Config.maxDataLen →
    (d1.primOk[0]?).getD (Config.freePrimOk (s.serial + 1) 0) = true →
    (x ≠ [] → (d2.primOk[0]?).getD (Config.freePrimOk (s.serial + 2) 0) = true) →
    (d3.primOk[0]?).getD (Config.freePrimOk (s'.serial + 1) 0) = true →
    (x ≠ [] → (d4.primOk[0]?).getD (Config.freePrimOk (s'.serial + 2) 0) = true) →
    s.inbox = .command ⟨w1, iv, d1⟩ :: .command ⟨w2, x, d2⟩ :: rest →
      ∃ (t : State) (y : List Byte),
        Host.Core.run core 2 s = .next t ∧ t.resp = some ⟨.ok, y⟩ ∧ y.length = x.length ∧
        (s'.inbox = .command ⟨w3, iv, d3⟩ :: .command ⟨w4, y, d4⟩ :: rest' →
          ∃ t' : State, Host.Core.run core 2 s' = .next t' ∧ t'.resp = some ⟨.ok, x⟩)

/-- The spec's inference R156 from R150: a PROCESS answered OK returns as many bytes as it was given, and byte `j` depends only on byte `j` of DATA
and on keystream byte `j`. -/
def Obligations.ProcessWorksByteByByte : Prop :=
  ∀ (s s' t t' : State) (dir dir' : Direction) (out out' : List Byte),
    exec (.process dir) s = .next t → t.resp = some ⟨.ok, out⟩ →
    exec (.process dir') s' = .next t' → t'.resp = some ⟨.ok, out'⟩ →
      out.length = s.data.length ∧
      ∀ j, s.data[j]? = s'.data[j]? → s.ks j = s'.ks j → out[j]? = out'[j]?

/-! ## SELF_TEST and GET_DESC -/

/-- R172: the bytes of the two fixed known-answer fixtures, and the parameter that is the AES-192 one. The AES-256
ciphertext is the corrected one, which the spec marks as general knowledge (log 14). -/
def Obligations.KnownAnswerFixtures : Prop :=
  kat128 =
    { keySalt := [0x2b, 0x7e, 0x15, 0x16, 0x28, 0xae, 0xd2, 0xa6, 0xab, 0xf7, 0x15, 0x88, 0x09, 0xcf, 0x4f, 0x3c,
                  0xf0, 0xf1, 0xf2, 0xf3, 0xf4, 0xf5, 0xf6, 0xf7, 0xf8, 0xf9, 0xfa, 0xfb, 0xfc, 0xfd]
      nonce := List.replicate 16 0
      pt := List.replicate 32 0
      ct := [0xe0, 0x3e, 0xad, 0x09, 0x35, 0xc9, 0x5e, 0x80, 0xe1, 0x66, 0xb1, 0x6d, 0xd9, 0x2b, 0x4e, 0xb4,
             0xd2, 0x35, 0x13, 0x16, 0x2b, 0x02, 0xd0, 0xf7, 0x2a, 0x43, 0xa2, 0xfe, 0x4a, 0x5f, 0x97, 0xab] } ∧
  kat256 =
    { keySalt := [0x57, 0xf8, 0x2f, 0xe3, 0x61, 0x3f, 0xd1, 0x70, 0xa8, 0x5e, 0xc9, 0x3c, 0x40, 0xb1, 0xf0, 0x92,
                  0x2e, 0xc4, 0xcb, 0x0d, 0xc0, 0x25, 0xb5, 0x82, 0x72, 0x14, 0x7c, 0xc4, 0x38, 0x94, 0x4a, 0x98,
                  0xf0, 0xf1, 0xf2, 0xf3, 0xf4, 0xf5, 0xf6, 0xf7, 0xf8, 0xf9, 0xfa, 0xfb, 0xfc, 0xfd]
      nonce := List.replicate 16 0
      pt := List.replicate 32 0
      ct := [0x92, 0xbd, 0xd2, 0x8a, 0x93, 0xc3, 0xf5, 0x25, 0x11, 0xc6, 0x77, 0xd0, 0x8b, 0x55, 0x15, 0xa4,
             0x9d, 0xa7, 0x1b, 0x23, 0x78, 0xa8, 0x54, 0xf6, 0x70, 0x50, 0x75, 0x6d, 0xed, 0x16, 0x5b, 0xac] } ∧
  (Config.aes192Enabled = true → ∀ f, Config.kat192 = some f →
    (KeyClass.aes192, f) ∈ selfTestCases Config.aes192Enabled Config.kat192)

/-- R171: SELF_TEST is refused while a context is allocated, writing nothing; otherwise it runs and, whatever its
status, leaves every register zero and returns no data. -/
def Obligations.SelfTestEndsZeroized : Prop :=
  ∀ s : State,
    (s.eng.lc ≠ .unalloc → exec .selfTest s = .next { s with resp := some ⟨.invalidState, []⟩ }) ∧
    (s.eng.lc = .unalloc →
      ∃ st, st ≠ .invalidState ∧ st ≠ .illegalCommand ∧
        exec .selfTest s = .next
          { s with
            eng := { lc := .unalloc, kclass := none, key := Vector.replicate 32 0, offset := 0, counter := 0
                     prim := { seeded := false, pkclass := none, pkey := Vector.replicate 32 0
                               pctr0 := 0, kspos := 0 } }
            resp := some ⟨st, []⟩ })

/-- R171: SELF_TEST answers OK exactly when every class it runs passes: fixture well formed, allocation and primitive
draws true in the order of the calls, and the output equal to the fixture's ciphertext, computed from the fixture
alone. -/
def Obligations.SelfTestOkExactlyWhenEveryClassPasses : Prop :=
  ∀ s t : State, s.eng.lc = .unalloc → exec .selfTest s = .next t →
    (t.resp = some ⟨.ok, []⟩ ↔
      ∀ (n : Nat) (c : KeyClass) (f : KnownAnswer),
        (selfTestCases Config.aes192Enabled Config.kat192)[n]? = some (c, f) →
          Passes s n (primDraws ((selfTestCases Config.aes192Enabled Config.kat192).take n)) c f)

/-- R171: which classes SELF_TEST runs, in which order: AES128, AES192 if it is enabled and has a fixture, AES256. -/
def Obligations.SelfTestClassOrder : Prop :=
  (∀ f, selfTestCases true (some f) = [(.aes128, kat128), (.aes192, f), (.aes256, kat256)]) ∧
  selfTestCases true none = [(.aes128, kat128), (.aes256, kat256)] ∧
  (∀ k, selfTestCases false k = [(.aes128, kat128), (.aes256, kat256)])

/-- R171, R205: the step that fails first, in the first class that does not pass, gives the status, and testing stops
there. Within a class a malformed fixture comes before the allocation draw, that before the primitive's init, that
before its update, and a differing output last. Said of any list of classes, since what the classes of this build do
rests on the parameters; SELF_TEST runs those of `selfTestCases`. -/
def Obligations.SelfTestReportsFirstFailure : Prop :=
  (∀ s : State, s.eng.lc = .unalloc →
    exec .selfTest s = .next (selfTestOn (selfTestCases Config.aes192Enabled Config.kat192) s)) ∧
  ∀ (s : State) (cases : List (KeyClass × KnownAnswer)) (n p : Nat) (c : KeyClass) (f : KnownAnswer),
    cases[n]? = some (c, f) → p = primDraws (cases.take n) →
    (∀ (m : Nat) (c' : KeyClass) (f' : KnownAnswer), m < n → cases[m]? = some (c', f') →
      Passes s m (primDraws (cases.take m)) c' f') →
    ((f.keySalt.length ≠ totalLen c ∨ f.nonce.length ≠ 16 ∨ f.pt.length ≠ f.ct.length) →
      (selfTestOn cases s).resp = some ⟨.invalidParameter, []⟩) ∧
    (f.keySalt.length = totalLen c → f.nonce.length = 16 → f.pt.length = f.ct.length →
      (s.allocOk n = false → (selfTestOn cases s).resp = some ⟨.allocationFailure, []⟩) ∧
      (s.allocOk n = true → s.primOk p = false →
        (selfTestOn cases s).resp = some ⟨.cipherFailure, []⟩) ∧
      (s.allocOk n = true → s.primOk p = true → f.pt ≠ [] → s.primOk (p + 1) = false →
        (selfTestOn cases s).resp = some ⟨.cipherFailure, []⟩) ∧
      (s.allocOk n = true → s.primOk p = true → (f.pt ≠ [] → s.primOk (p + 1) = true) →
        (∃ (j : Nat) (b : Byte), f.pt[j]? = some b ∧
          f.ct[j]? ≠ some (b ^^^ ksByte Config.ctrIncWidth (fixturePrimitive c f) j)) →
        (selfTestOn cases s).resp = some ⟨.selfTestFailure, []⟩))

/-- R173: no self-test result is latched: after any SELF_TEST that ran, whatever its status, an ALLOC of an AES-128
context whose allocation draw succeeds answers OK. -/
def Obligations.SelfTestFailureIsNotLatched : Prop :=
  ∀ (s t u : State) (tlen : Nat), s.eng.lc = .unalloc → exec .selfTest s = .next t →
    u.eng = t.eng → u.allocOk 0 = true →
      ∃ v, exec (.alloc 30 tlen) u = .next v ∧ v.resp = some ⟨.ok, []⟩ ∧
        v.eng.lc = .alloc ∧ v.eng.kclass = some .aes128

/-- R174: GET_DESC's encoding; it answers OK with the description string in every state and writes no register. -/
def Obligations.GetDescReturnsDescription : Prop :=
  (∀ w : Word, w &&& 0xFFFFFFFF = 0x00000006 ↔ decode w = .ok .getDesc) ∧
  ∀ s : State, exec .getDesc s = .next { s with resp := some ⟨.ok, Config.descString⟩ }

/-! ## Rules about all commands -/

/-- R200: every command completes and answers: a step at a command gives a next state with a response and takes exactly
that command from the port, and no step ends in a fault or a refusal. That commands stand in a queue, and that a step
with nothing delivered is taken and leaves the whole state as it is (R214: "All state persists between commands"), is
the model's choice (log 1). -/
def Obligations.EveryCommandCompletesAndAnswers : Prop :=
  (∀ (s : State) (c : Command) (rest : List PortEvent), s.inbox = .command c :: rest →
    ∃ t r, step s = .next t ∧ t.resp = some r ∧ t.inbox = rest) ∧
  (∀ s : State, s.inbox = [] → step s = .next s) ∧
  (∀ s : State, ∃ t, step s = .next t) ∧
  (∀ (i : Instr) (s : State), ∃ t r, exec i s = .next t ∧ t.resp = some r ∧
    t.inbox = s.inbox ∧ t.data = s.data ∧ t.draws = s.draws ∧ t.serial = s.serial)

/-- R170: the legality of every command in every `LC`, and the `LC` it leaves, ILLEGAL words included. -/
def Obligations.LifecycleTable : Prop :=
  (∀ (i : Instr) (s t : State) (r : Response), exec i s = .next t → t.resp = some r →
    (lcAfterOk s.eng.lc i = none ↔ r.status = .invalidState) ∧
    (r.status = .invalidState → t = { s with resp := some ⟨.invalidState, []⟩ }) ∧
    (r.status = .ok → lcAfterOk s.eng.lc i = some t.eng.lc) ∧
    (r.status = .invalidParameter ∨ r.status = .allocationFailure → t.eng.lc = s.eng.lc) ∧
    (r.status = .cipherFailure → i ≠ .selfTest → t.eng.lc = .init) ∧
    (i = .selfTest → r.status ≠ .invalidState → t.eng.lc = .unalloc)) ∧
  (∀ (s t : State) (c : Command) (rest : List PortEvent) (r : Response),
    s.inbox = .command c :: rest → step s = .next t → t.resp = some r →
      r.status = .illegalCommand → t.eng.lc = s.eng.lc)

/-- R201: the cause of every status a command can answer with; every other pairing does not occur, an ILLEGAL word is the
one cause of ILLEGAL_COMMAND, and no error carries any further information. -/
def Obligations.StatusCauses : Prop :=
  (∀ (i : Instr) (s t : State) (r : Response), exec i s = .next t → t.resp = some r →
      (r.status = .invalidParameter →
        (∃ klen tlen, i = .alloc klen tlen ∧ classOf Config.aes192Enabled klen = none) ∨
        (i = .init ∧ ∀ c, s.eng.kclass = some c → s.data.length < totalLen c) ∨
        (∃ dir, i = .setIv dir ∧ s.data.length < 16) ∨
        (∃ dir, i = .process dir ∧ Config.maxDataLen < s.data.length) ∨
        (i = .selfTest ∧ Config.aes192Enabled = true ∧
          ∃ f, Config.kat192 = some f ∧ malformed .aes192 f = true)) ∧
      (r.status = .allocationFailure →
        (∃ klen tlen, i = .alloc klen tlen ∧ s.allocOk 0 = false) ∨
        (i = .selfTest ∧ ∃ n, n < 3 ∧ s.allocOk n = false)) ∧
      (r.status = .cipherFailure →
        (∃ dir, i = .setIv dir ∧ s.primOk 0 = false) ∨
        (∃ dir, i = .process dir ∧ s.primOk 0 = false) ∨
        (i = .selfTest ∧ ∃ n, n < 6 ∧ s.primOk n = false)) ∧
      (r.status = .selfTestFailure → i = .selfTest ∧
        ∃ c f, (c, f) ∈ selfTestCases Config.aes192Enabled Config.kat192 ∧
          ∃ (j : Nat) (b : Byte), f.pt[j]? = some b ∧
            f.ct[j]? ≠ some (b ^^^ ksByte Config.ctrIncWidth (fixturePrimitive c f) j)) ∧
      (r.status = .invalidState → i ≠ .dealloc ∧ i ≠ .getDesc ∧ lcAfterOk s.eng.lc i = none) ∧
      r.status ≠ .illegalCommand) ∧
  (∀ (s t : State) (c : Command) (rest : List PortEvent) (r : Response),
    s.inbox = .command c :: rest → step s = .next t → t.resp = some r →
      (r.status = .illegalCommand ↔ ∃ why, decode c.cmd = .error why) ∧ (r.status ≠ .ok → r.rdata = []))

/-- R76: the codes of the statuses; 7 to 15 are no status's. -/
def Obligations.StatusCodes : Prop :=
  Status.code .ok = 0 ∧ Status.code .invalidParameter = 1 ∧ Status.code .allocationFailure = 2 ∧
  Status.code .cipherFailure = 3 ∧ Status.code .selfTestFailure = 4 ∧ Status.code .invalidState = 5 ∧
  Status.code .illegalCommand = 6 ∧ ∀ st : Status, (Status.code st).toNat ≤ 6

/-- R77: which responses carry data: a PROCESS answered OK (as many bytes as its buffer) and a GET_DESC (the
description string); every other response is empty. -/
def Obligations.OnlyProcessAndGetDescReturnData : Prop :=
  ∀ (s t : State) (c : Command) (rest : List PortEvent) (r : Response),
    s.inbox = .command c :: rest → step s = .next t → t.resp = some r →
      (r.status ≠ .ok → r.rdata = []) ∧
      (∀ i, decode c.cmd = .ok i → isProcess i = true → r.status = .ok → r.rdata.length = c.data.length) ∧
      (decode c.cmd = .ok .getDesc → r.rdata = Config.descString) ∧
      (∀ i, decode c.cmd = .ok i → isProcess i = false → i ≠ .getDesc → r.rdata = [])

/-- R202: an error writes no register, but for its three cases; and every error's data is empty. -/
def Obligations.ErrorsWriteNoRegister : Prop :=
  ∀ (s t : State) (c : Command) (rest : List PortEvent) (r : Response),
    s.inbox = .command c :: rest → step s = .next t → t.resp = some r →
      (r.status = .illegalCommand ∨ r.status = .invalidState → t.eng = s.eng) ∧
      (r.status = .invalidParameter ∨ r.status = .allocationFailure → decode c.cmd ≠ .ok .selfTest →
        t.eng = s.eng) ∧
      (∀ dir, decode c.cmd = .ok (.setIv dir) → r.status = .cipherFailure →
        t.eng = { s.eng with lc := .init, counter := s.eng.offset ^^^ be128 (c.data.take 16)
                             prim := Engine.reset.prim }) ∧
      (∀ dir, decode c.cmd = .ok (.process dir) → r.status = .cipherFailure →
        t.eng = { s.eng with lc := .init, prim := Engine.reset.prim }) ∧
      (decode c.cmd = .ok .selfTest → r.status ≠ .invalidState → t.eng = Engine.reset) ∧
      (r.status ≠ .ok → r.rdata = [])

/-- R205: the first of several error conditions is the one reported: an ILLEGAL word before the lifecycle, the
lifecycle before the operands, the operands before any draw. -/
def Obligations.ErrorPriority : Prop :=
  ∀ (s t : State) (c : Command) (rest : List PortEvent) (r : Response),
    s.inbox = .command c :: rest → step s = .next t → t.resp = some r →
      (∀ why, decode c.cmd = .error why → r.status = .illegalCommand) ∧
      (∀ i, decode c.cmd = .ok i → lcAfterOk s.eng.lc i = none → r.status = .invalidState) ∧
      (∀ klen tlen, decode c.cmd = .ok (.alloc klen tlen) → lcAfterOk s.eng.lc (.alloc klen tlen) ≠ none →
        classOf Config.aes192Enabled klen = none → r.status = .invalidParameter) ∧
      (∀ k, decode c.cmd = .ok .init → lcAfterOk s.eng.lc .init ≠ none → s.eng.kclass = some k →
        c.data.length < totalLen k → r.status = .invalidParameter) ∧
      (∀ dir, decode c.cmd = .ok (.setIv dir) → lcAfterOk s.eng.lc (.setIv dir) ≠ none →
        c.data.length < 16 → r.status = .invalidParameter) ∧
      (∀ dir, decode c.cmd = .ok (.process dir) → lcAfterOk s.eng.lc (.process dir) ≠ none →
        Config.maxDataLen < c.data.length → r.status = .invalidParameter)

/-- R31: a register changes only under the commands the table of R31 lists for it. -/
def Obligations.RegistersChangeOnlyUnderTheirWriters : Prop :=
  ∀ (i : Instr) (s t : State), exec i s = .next t →
    (t.eng.kclass ≠ s.eng.kclass → isAlloc i = true ∨ i = .dealloc ∨ i = .selfTest) ∧
    (t.eng.key ≠ s.eng.key → isAlloc i = true ∨ i = .init ∨ i = .dealloc ∨ i = .selfTest) ∧
    (t.eng.offset ≠ s.eng.offset → isAlloc i = true ∨ i = .init ∨ i = .dealloc ∨ i = .selfTest) ∧
    (t.eng.counter ≠ s.eng.counter →
      isAlloc i = true ∨ i = .init ∨ isSetIv i = true ∨ i = .dealloc ∨ i = .selfTest) ∧
    (t.eng.prim ≠ s.eng.prim ∨ t.eng.lc ≠ s.eng.lc → i ≠ .getDesc)

/-- R11, R20: the response of a command and the registers it leaves depend on the registers, the command and its draws,
and on nothing else that was on the port before (the serial number names the free values: log 3). -/
def Obligations.StepDependsOnlyOnRegistersAndCommand : Prop :=
  ∀ (s s' t t' : State) (c : Command) (rest rest' : List PortEvent),
    s.eng = s'.eng → s.serial = s'.serial →
    s.inbox = .command c :: rest → s'.inbox = .command c :: rest' →
    step s = .next t → step s' = .next t' → t.eng = t'.eng ∧ t.resp = t'.resp

/-- R31: no status reveals key material: from states that agree on lifecycle, class, operands and draws, every command
answers with the same status, whatever `KEY`, `OFFSET`, `COUNTER` and the primitive hold; and all but PROCESS return
the same data. -/
def Obligations.StatusRevealsNoKeyMaterial : Prop :=
  ∀ (i : Instr) (s s' t t' : State) (r r' : Response),
    s.eng.lc = s'.eng.lc → s.eng.kclass = s'.eng.kclass → s.data = s'.data → s.draws = s'.draws →
    s.serial = s'.serial →
    exec i s = .next t → t.resp = some r → exec i s' = .next t' → t'.resp = some r' →
      r.status = r'.status ∧ (isProcess i = false → r.rdata = r'.rdata)

/-- The spec's inference R236 from R103, R130 and R150: after an INIT answered OK, and after a CIPHER_FAILURE of SET_IV or PROCESS, the primitive is unseeded and
`LC` is INIT, and a PROCESS is refused. -/
def Obligations.ReInitOrFailureNeedsNewSetIv : Prop :=
  ∀ (i : Instr) (s t u : State) (r : Response) (dir : Direction), exec i s = .next t → t.resp = some r →
    (i = .init ∧ r.status = .ok) ∨ (i ≠ .selfTest ∧ r.status = .cipherFailure) →
      t.eng.lc = .init ∧ t.eng.prim.seeded = false ∧
      (u.eng = t.eng → exec (.process dir) u = .next { u with resp := some ⟨.invalidState, []⟩ })

/-- Of the spec's inference R58: a DEALLOC without a context, and a GET_DESC, leave every register as it is. -/
def Obligations.IdempotentCommandsWriteNothing : Prop :=
  ∀ (s t : State), EngineInv s.eng →
    (s.eng.lc = .unalloc → exec .dealloc s = .next t → t.eng = s.eng) ∧
    (exec .getDesc s = .next t → t.eng = s.eng)

/-! ## Invariants -/

/-- The reset state meets the invariant: R29's items hold of its registers (R34), and, by the model's choice (log 9), no
operand is left on the port. -/
def Obligations.ResetMeetsInvariant : Prop :=
  Inv State.reset

/-- Every command, from every state whose registers meet the invariants, leaves registers that meet them. -/
def Obligations.ExecKeepsEngineInvariant : Prop :=
  ∀ (i : Instr) (s t : State), EngineInv s.eng → exec i s = .next t → EngineInv t.eng

/-- Every step, from every state that meets the invariant, leads to a state that meets it. The invariant's clauses on the
port, that no operand is left there between commands, are the model's choice (log 9; R20: "Nothing else persists
between commands"). -/
def Obligations.StepKeepsInvariant : Prop :=
  ∀ s t : State, Inv s → step s = .next t → Inv t

/-- The spec's inference R29: its seven items, in every reachable state. -/
def Obligations.ReachableStatesMeetInvariants : Prop :=
  ∀ s : State, Reachable s →
    (s.eng.lc = .unalloc →
      s.eng.kclass = none ∧ s.eng.key = Vector.replicate 32 0 ∧ s.eng.offset = 0 ∧ s.eng.counter = 0 ∧
      s.eng.prim.seeded = false) ∧
    (s.eng.lc = .alloc →
      s.eng.key = Vector.replicate 32 0 ∧ s.eng.offset = 0 ∧ s.eng.counter = 0 ∧ s.eng.prim.seeded = false) ∧
    (s.eng.prim.seeded = true ↔ s.eng.lc = .ivset ∨ s.eng.lc = .processed) ∧
    (s.eng.prim.seeded = true →
      s.eng.prim.pkclass = s.eng.kclass ∧ s.eng.prim.pkey = s.eng.key ∧ s.eng.prim.pctr0 = s.eng.counter) ∧
    (s.eng.prim.seeded = false →
      s.eng.prim.pkclass = none ∧ s.eng.prim.pkey = Vector.replicate 32 0 ∧ s.eng.prim.pctr0 = 0 ∧
      s.eng.prim.kspos = 0) ∧
    s.eng.offset.extractLsb' 0 16 = 0 ∧
    (s.eng.lc = .ivset → s.eng.prim.kspos = 0)

/-- R233: in any run from reset, a PROCESS answered OK has before it, in order, an ALLOC answered OK, an INIT answered
OK and a SET_IV answered OK, not undone since: no reset and no DEALLOC answered OK after that ALLOC, and no INIT
answered OK and no CIPHER_FAILURE after that SET_IV. -/
def Obligations.ProcessOkNeedsCommandOrder : Prop :=
  ∀ (h : History) (t : State) (x : PortEvent × Option Response),
    RunTo State.reset (h ++ [x]) t → Answered isProcess .ok x →
      ∃ (h1 h2 h3 h4 : History) (a i v : PortEvent × Option Response),
        h = h1 ++ a :: h2 ++ i :: h3 ++ v :: h4 ∧
        Answered isAlloc .ok a ∧ Answered (fun j => j = .init) .ok i ∧ Answered isSetIv .ok v ∧
        (∀ y ∈ h2, ¬ EndsContext y) ∧ (∀ y ∈ h3, ¬ EndsContext y) ∧ ∀ y ∈ h4, ¬ EndsSeeding y

/-! ## Register codes -/

/-- R23, R24: the codes of the five values of `LC` and the four of the class registers; `LC` never has the code 5, 6 or
7, and no code stands for two values. -/
def Obligations.LifecycleAndClassCodes : Prop :=
  Lifecycle.code .unalloc = 0 ∧ Lifecycle.code .alloc = 1 ∧ Lifecycle.code .init = 2 ∧
  Lifecycle.code .ivset = 3 ∧ Lifecycle.code .processed = 4 ∧
  (∀ lc : Lifecycle, (Lifecycle.code lc).toNat ≤ 4) ∧ (∀ l l' : Lifecycle, l.code = l'.code ↔ l = l') ∧
  classCode none = 0 ∧ classCode (some .aes128) = 1 ∧ classCode (some .aes192) = 2 ∧
  classCode (some .aes256) = 3 ∧ ∀ c c' : Option KeyClass, classCode c = classCode c' ↔ c = c'
end

