-- ==== Sys2Proof/Laws/Decode.lean ====
section
/-!
SUPPORT. What the decoder answers, said once, and its fields as numbers.
-/

namespace Sys2Proof

/-- A mask of all ones keeps the word. -/
theorem and_wordOnes (w : Word) : w &&& 0xFFFFFFFF = w := by
  have h : (0xFFFFFFFF : Word) = BitVec.allOnes 32 := by decide
  rw [h, BitVec.and_allOnes]

/-- The decoder as a chain of the seven tests of 30_encoding.md R73. -/
theorem decode_eq (w : Word) : decode w =
    if w &&& 0xFF0000FF = 1 then .ok (.alloc (klenOf w) (tlenOf w))
    else if w = 2 then .ok .init
    else if w &&& 0xFFFFFFEF = 3 then .ok (.setIv (dirOf w))
    else if w &&& 0xFFFFFFEF = 4 then .ok (.process (dirOf w))
    else if w = 5 then .ok .dealloc
    else if w = 6 then .ok .getDesc
    else if w = 7 then .ok .selfTest
    else .error (illegalReason w) := by
  simp only [decode, rows, List.find?, Row.selects, and_wordOnes]
  by_cases h1 : w &&& 0xFF0000FF = 1
  · simp only [h1, decide_true, if_true]
  by_cases h2 : w = 2
  · subst h2; rfl
  by_cases h3 : w &&& 0xFFFFFFEF = 3
  · simp only [h1, h2, h3, decide_true, decide_false, if_true, if_false]
  by_cases h4 : w &&& 0xFFFFFFEF = 4
  · simp only [h1, h2, h4, decide_true, decide_false, if_true, if_false]
    rfl
  by_cases h5 : w = 5
  · subst h5; rfl
  by_cases h6 : w = 6
  · subst h6; rfl
  by_cases h7 : w = 7
  · subst h7; rfl
  simp only [h1, h2, h3, h4, h5, h6, h7, decide_false, if_false]

/-- Two rows whose masks cover the opcode and whose opcodes differ select no word together. -/
theorem rows_exclusive {w p q m n : Word} (hp : w &&& m = p) (hq : w &&& n = q)
    (hm : m &&& 0xF = 0xF) (hn : n &&& 0xF = 0xF) : p &&& 0xF = q &&& 0xF := by
  rw [← hp, ← hq, BitVec.and_assoc, hm, BitVec.and_assoc, hn]

/-- `KLEN` as a number. -/
theorem klenOf_eq (w : Word) : klenOf w = w.toNat / 2 ^ 8 % 256 := by
  simp [klenOf, BitVec.extractLsb'_toNat, Nat.shiftRight_eq_div_pow]

/-- `TLEN` as a number. -/
theorem tlenOf_eq (w : Word) : tlenOf w = w.toNat / 2 ^ 16 % 256 := by
  simp [tlenOf, BitVec.extractLsb'_toNat, Nat.shiftRight_eq_div_pow]

/-- `DIR` is decrypt exactly when bit 4 is set. -/
theorem dirOf_eq (w : Word) : dirOf w = if w.getLsbD 4 = true then .decrypt else .encrypt := by
  have h : w.extractLsb' 4 1 = 0 ↔ w.getLsbD 4 = false := by
    constructor
    · intro h
      simpa using congrArg (fun x => x.getLsbD 0) h
    · intro h
      ext i hi
      obtain rfl : i = 0 := by omega
      simpa using h
  unfold dirOf
  by_cases hb : w.getLsbD 4 = true
  · rw [if_neg (by rw [h]; simp [hb]), if_pos hb]
  · rw [if_pos (by rw [h]; simpa using hb), if_neg hb]

/-- The word of the table's low 32 bits is that word. -/
@[simp] theorem wordOfTable_toNat (w : Word) : wordOfTable 32 w.toNat = w := by
  apply BitVec.eq_of_toNat_eq
  simp [wordOfTable, Nat.mod_eq_of_lt w.isLt]

end Sys2Proof
end

