-- ==== Sys2Proof/Laws/State.lean ====
section
/-!
SUPPORT. What each named update leaves in each field, so that no proof unfolds a record update.
-/

namespace Sys2Proof.Machine

/-! ## `State.answer` and `State.fail` -/

section Answer
variable (s : State) (e : Engine) (st : Status) (rd : List Byte)

@[simp] theorem State.answer_eng : (s.answer e st rd).eng = e := rfl
@[simp] theorem State.answer_inbox : (s.answer e st rd).inbox = s.inbox := rfl
@[simp] theorem State.answer_data : (s.answer e st rd).data = s.data := rfl
@[simp] theorem State.answer_draws : (s.answer e st rd).draws = s.draws := rfl
@[simp] theorem State.answer_resp : (s.answer e st rd).resp = some ⟨st, rd⟩ := rfl
@[simp] theorem State.answer_serial : (s.answer e st rd).serial = s.serial := rfl

@[simp] theorem State.fail_eng : (s.fail st).eng = s.eng := rfl
@[simp] theorem State.fail_inbox : (s.fail st).inbox = s.inbox := rfl
@[simp] theorem State.fail_data : (s.fail st).data = s.data := rfl
@[simp] theorem State.fail_draws : (s.fail st).draws = s.draws := rfl
@[simp] theorem State.fail_resp : (s.fail st).resp = some ⟨st, []⟩ := rfl
@[simp] theorem State.fail_serial : (s.fail st).serial = s.serial := rfl

/-- An error answer is an answer with the registers unchanged and no data. -/
theorem State.fail_eq_answer : s.fail st = s.answer s.eng st [] := rfl

end Answer

/-! ## The port -/

section Port
variable (s : State) (c : Command) (rest : List PortEvent) (ev : PortEvent)

@[simp] theorem State.takeCommand_eng : (s.takeCommand c rest).eng = s.eng := rfl
@[simp] theorem State.takeCommand_inbox : (s.takeCommand c rest).inbox = rest := rfl
@[simp] theorem State.takeCommand_data : (s.takeCommand c rest).data = c.data := rfl
@[simp] theorem State.takeCommand_draws : (s.takeCommand c rest).draws = c.draws := rfl
@[simp] theorem State.takeCommand_resp : (s.takeCommand c rest).resp = none := rfl
@[simp] theorem State.takeCommand_serial : (s.takeCommand c rest).serial = s.serial + 1 := rfl

@[simp] theorem State.retire_eng : s.retire.eng = s.eng := rfl
@[simp] theorem State.retire_inbox : s.retire.inbox = s.inbox := rfl
@[simp] theorem State.retire_data : s.retire.data = [] := rfl
@[simp] theorem State.retire_draws : s.retire.draws = Draws.free := rfl
@[simp] theorem State.retire_resp : s.retire.resp = s.resp := rfl
@[simp] theorem State.retire_serial : s.retire.serial = s.serial := rfl

@[simp] theorem State.takeReset_eng : (s.takeReset rest).eng = Engine.reset := rfl
@[simp] theorem State.takeReset_inbox : (s.takeReset rest).inbox = rest := rfl
@[simp] theorem State.takeReset_data : (s.takeReset rest).data = [] := rfl
@[simp] theorem State.takeReset_draws : (s.takeReset rest).draws = Draws.free := rfl
@[simp] theorem State.takeReset_resp : (s.takeReset rest).resp = none := rfl
@[simp] theorem State.takeReset_serial : (s.takeReset rest).serial = s.serial := rfl

@[simp] theorem State.deliver_eng : (s.deliver ev).eng = s.eng := rfl
@[simp] theorem State.deliver_inbox : (s.deliver ev).inbox = s.inbox ++ [ev] := rfl
@[simp] theorem State.deliver_data : (s.deliver ev).data = s.data := rfl
@[simp] theorem State.deliver_draws : (s.deliver ev).draws = s.draws := rfl
@[simp] theorem State.deliver_resp : (s.deliver ev).resp = s.resp := rfl
@[simp] theorem State.deliver_serial : (s.deliver ev).serial = s.serial := rfl

end Port

/-! ## The registers -/

section Registers
variable (e : Engine) (k : Option KeyClass) (c : KeyClass) (key : KeyStore) (ctr : Block) (n : Nat)
  (nonce data : List Byte)

@[simp] theorem Engine.unseed_lc : e.unseed.lc = e.lc := rfl
@[simp] theorem Engine.unseed_kclass : e.unseed.kclass = e.kclass := rfl
@[simp] theorem Engine.unseed_key : e.unseed.key = e.key := rfl
@[simp] theorem Engine.unseed_offset : e.unseed.offset = e.offset := rfl
@[simp] theorem Engine.unseed_counter : e.unseed.counter = e.counter := rfl
@[simp] theorem Engine.unseed_prim : e.unseed.prim = Primitive.reset := rfl

@[simp] theorem Engine.seed_lc : (e.seed k key ctr).lc = e.lc := rfl
@[simp] theorem Engine.seed_kclass : (e.seed k key ctr).kclass = e.kclass := rfl
@[simp] theorem Engine.seed_key : (e.seed k key ctr).key = e.key := rfl
@[simp] theorem Engine.seed_offset : (e.seed k key ctr).offset = e.offset := rfl
@[simp] theorem Engine.seed_counter : (e.seed k key ctr).counter = e.counter := rfl
@[simp] theorem Engine.seed_prim : (e.seed k key ctr).prim = ⟨true, k, key, ctr, 0⟩ := rfl

@[simp] theorem Engine.advance_lc : (e.advance n).lc = e.lc := rfl
@[simp] theorem Engine.advance_kclass : (e.advance n).kclass = e.kclass := rfl
@[simp] theorem Engine.advance_key : (e.advance n).key = e.key := rfl
@[simp] theorem Engine.advance_offset : (e.advance n).offset = e.offset := rfl
@[simp] theorem Engine.advance_counter : (e.advance n).counter = e.counter := rfl
@[simp] theorem Engine.advance_seeded : (e.advance n).prim.seeded = e.prim.seeded := rfl
@[simp] theorem Engine.advance_pkclass : (e.advance n).prim.pkclass = e.prim.pkclass := rfl
@[simp] theorem Engine.advance_pkey : (e.advance n).prim.pkey = e.prim.pkey := rfl
@[simp] theorem Engine.advance_pctr0 : (e.advance n).prim.pctr0 = e.prim.pctr0 := rfl
@[simp] theorem Engine.advance_kspos : (e.advance n).prim.kspos = e.prim.kspos + n := rfl

/-- ALLOC's writes replace every register. -/
theorem Engine.bindClass_eq :
    e.bindClass c = ⟨.alloc, some c, zeroKey, 0, 0, Primitive.reset⟩ := rfl

@[simp] theorem Engine.bindClass_kclass : (e.bindClass c).kclass = some c := rfl
@[simp] theorem Engine.bindClass_key : (e.bindClass c).key = zeroKey := rfl

/-- DEALLOC's writes leave the reset registers, whatever was there. -/
@[simp] theorem Engine.zeroize_eq_reset : e.zeroize = Engine.reset := rfl

@[simp] theorem Engine.loadContext_lc : (e.loadContext data).lc = .init := rfl
@[simp] theorem Engine.loadContext_kclass : (e.loadContext data).kclass = e.kclass := rfl
@[simp] theorem Engine.loadContext_key :
    (e.loadContext data).key = loadKey e.key (keyLenOf e.kclass) data := rfl
@[simp] theorem Engine.loadContext_offset :
    (e.loadContext data).offset = saltBlock (saltOf (keyLenOf e.kclass) data) := rfl
@[simp] theorem Engine.loadContext_counter :
    (e.loadContext data).counter = saltBlock (saltOf (keyLenOf e.kclass) data) := rfl
@[simp] theorem Engine.loadContext_prim : (e.loadContext data).prim = Primitive.reset := rfl

@[simp] theorem Engine.derive_lc : (e.derive nonce).lc = e.lc := rfl
@[simp] theorem Engine.derive_kclass : (e.derive nonce).kclass = e.kclass := rfl
@[simp] theorem Engine.derive_key : (e.derive nonce).key = e.key := rfl
@[simp] theorem Engine.derive_offset : (e.derive nonce).offset = e.offset := rfl
@[simp] theorem Engine.derive_counter : (e.derive nonce).counter = deriveCounter e.offset nonce := rfl
@[simp] theorem Engine.derive_prim : (e.derive nonce).prim = e.prim := rfl

@[simp] theorem Engine.seedFromContext_lc : e.seedFromContext.lc = .ivset := rfl
@[simp] theorem Engine.seedFromContext_kclass : e.seedFromContext.kclass = e.kclass := rfl
@[simp] theorem Engine.seedFromContext_key : e.seedFromContext.key = e.key := rfl
@[simp] theorem Engine.seedFromContext_offset : e.seedFromContext.offset = e.offset := rfl
@[simp] theorem Engine.seedFromContext_counter : e.seedFromContext.counter = e.counter := rfl
@[simp] theorem Engine.seedFromContext_prim :
    e.seedFromContext.prim = ⟨true, e.kclass, e.key, e.counter, 0⟩ := rfl

@[simp] theorem Engine.cipherFailed_lc : e.cipherFailed.lc = .init := rfl
@[simp] theorem Engine.cipherFailed_kclass : e.cipherFailed.kclass = e.kclass := rfl
@[simp] theorem Engine.cipherFailed_key : e.cipherFailed.key = e.key := rfl
@[simp] theorem Engine.cipherFailed_offset : e.cipherFailed.offset = e.offset := rfl
@[simp] theorem Engine.cipherFailed_counter : e.cipherFailed.counter = e.counter := rfl
@[simp] theorem Engine.cipherFailed_prim : e.cipherFailed.prim = Primitive.reset := rfl

end Registers

end Sys2Proof.Machine
end

