-- ==== Sys2Proof/Machine/Platform.lean ====
section
/-!
DEFINITION. The platform in front of the command port: what `BUS_MAP` (00_scope.md R6, 92_eei_decisions.md D25) makes of
a host's bus transaction, and of reads and writes where the port is memory-mapped (20_memory.md R59). No step uses this file, since no rule of the engine reads `BUS_MAP`; the host side of a
platform is `busDeliver Config.busMap`. Log 6.
-/

namespace Sys2Proof.Machine

/-! ## Transactions -/

/-- What a host agent puts on the bus to issue one command. -/
structure BusTransaction where
  agent : Nat
  address : Nat
  cmdBytes : List Byte
  dataBytes : List Byte
  deriving DecidableEq, Repr

/-- The instance whose command port lies at an address (20_memory.md R59, 60_exceptions.md R211). -/
def busTarget (m : BusMap) (address : Nat) : Option Nat :=
  m.instances.find? fun inst => address ∈ m.portAddresses inst

/-- The command a transaction puts on an instance's port: none where its address is no port of that instance, where its
bytes stand for no command, or where its agent may not issue that word (60_exceptions.md R208). The draws are the
environment's (00_scope.md R12). -/
def busCommand (m : BusMap) (inst : Nat) (x : BusTransaction) (d : Draws) : Option Command :=
  if busTarget m x.address = some inst then
    match m.cmdOfBytes x.cmdBytes, m.dataOfBytes x.dataBytes with
    | some w, some data => if m.mayIssue x.agent inst w then some ⟨w, data, d⟩ else none
    | _, _ => none
  else none

/-- A transaction seen by instance `inst`: its command is delivered, or nothing happens to this instance
(60_exceptions.md R211). -/
def State.busDeliver (m : BusMap) (inst : Nat) (x : BusTransaction) (d : Draws) (s : State) : State :=
  match busCommand m inst x d with
  | some c => s.deliver (.command c)
  | none => s

/-- The bytes that carry the latest response's RDATA to the host (20_memory.md R50). -/
def State.busRdata (m : BusMap) (s : State) : Option (List Byte) :=
  s.resp.map fun r => m.bytesOfRdata r.rdata

/-! ## A memory-mapped port (20_memory.md R59) -/

/-- The byte writes a host agent makes at bus addresses, in order, to issue one command. -/
structure BusAccess where
  agent : Nat
  writes : List (Nat × Byte)
  deriving DecidableEq, Repr

/-- Whether an address lies in a register of an instance's port. -/
def inRegister (m : BusMap) (inst : Nat) (r : PortRegister) (address : Nat) : Bool :=
  (m.registerAt inst address).any (·.1 == r)

/-- The bytes that writes put into a register, in the order of its bytes; writes to one byte stay in the order in which
they were made, so that a register of one address can take a string. DESIGN CHOICE (log 6): `registerAt`
alone says which writes count; whether their addresses are among `portAddresses`, or another instance answers there, is
not asked. -/
def writtenBytes (m : BusMap) (inst : Nat) (r : PortRegister) (writes : List (Nat × Byte)) : List Byte :=
  let placed := writes.filterMap fun w =>
    match m.registerAt inst w.1 with
    | some (r', i) => if r' = r then some (i, w.2) else none
    | none => none
  (placed.insertionSort fun a b => a.1 ≤ b.1).map (·.2)

/-- The transaction that writes make: at the address of the first write to the CMD register, with the bytes written to
the CMD and DATA registers; none where nothing is written to CMD. DESIGN CHOICE (log 6): that one
address stands for the whole access, and it alone is later held against `busTarget`. -/
def BusAccess.transaction (m : BusMap) (inst : Nat) (x : BusAccess) : Option BusTransaction :=
  (x.writes.find? fun w => inRegister m inst .cmd w.1).map fun w =>
    ⟨x.agent, w.1, writtenBytes m inst .cmd x.writes, writtenBytes m inst .data x.writes⟩

/-- Writes seen by instance `inst`: the transaction they make, or nothing. -/
def State.busWrite (m : BusMap) (inst : Nat) (x : BusAccess) (d : Draws) (s : State) : State :=
  match x.transaction m inst with
  | some t => s.busDeliver m inst t d
  | none => s

/-- What a register shows the host: of a response its parts; CMD and DATA show nothing, since the host reads only the
response (10_state.md R31). -/
def registerBytes (m : BusMap) (r : Response) : PortRegister → List Byte
  | .cmd => []
  | .data => []
  | .status => m.bytesOfStatus r.status.code
  | .rdata => m.bytesOfRdata r.rdata
  | .rdataLength => m.bytesOfLength r.rdata.length

/-- A host agent's read of one byte at an address of instance `inst`: none where the agent may not read, where the
address is no register byte of this instance's port, or where there is no response. It has no side effect
(20_memory.md R58). -/
def State.busRead (m : BusMap) (agent inst address : Nat) (s : State) : Option Byte :=
  if busTarget m address = some inst ∧ m.mayRead agent inst = true then
    match m.registerAt inst address, s.resp with
    | some (reg, i), some r => (registerBytes m r reg)[i]?
    | _, _ => none
  else none

end Sys2Proof.Machine
end

