-- ==== Sys2Proof/Laws/Ops.lean ====
section
/-!
SUPPORT. What each shared operation does, said once.
-/

namespace Sys2Proof.Machine

/-! ## Draws -/

/-- A listed allocation draw has the listed outcome. -/
theorem State.allocOk_of_listed {s : State} {i : Nat} {b : Bool} (h : s.draws.allocOk[i]? = some b) :
    s.allocOk i = b := by simp [State.allocOk, h]

/-- A listed primitive draw has the listed outcome. -/
theorem State.primOk_of_listed {s : State} {i : Nat} {b : Bool} (h : s.draws.primOk[i]? = some b) :
    s.primOk i = b := by simp [State.primOk, h]

/-- A listed keystream draw has the listed byte. -/
theorem State.ksDraw_of_listed {s : State} {j : Nat} {b : Byte} (h : s.draws.ksBytes[j]? = some b) :
    s.ksDraw j = b := by simp [State.ksDraw, h]

/-- The draws of a state are those of its record and its serial number. -/
theorem State.allocOk_congr {s t : State} (hd : s.draws = t.draws) (hn : s.serial = t.serial) :
    s.allocOk = t.allocOk := by funext i; simp only [State.allocOk, hd, hn]

theorem State.primOk_congr {s t : State} (hd : s.draws = t.draws) (hn : s.serial = t.serial) :
    s.primOk = t.primOk := by funext i; simp only [State.primOk, hd, hn]

theorem State.ksDraw_congr {s t : State} (hd : s.draws = t.draws) (hn : s.serial = t.serial) :
    s.ksDraw = t.ksDraw := by funext j; simp only [State.ksDraw, hd, hn]

/-! ## Classes and operands -/

/-- `TOTAL(c)` is `K(c)` plus the salt. -/
theorem totalLen_eq (c : KeyClass) : totalLen c = keyLen c + saltLen := by cases c <;> rfl

theorem keyLen_le (c : KeyClass) : keyLen c ≤ 32 := by cases c <;> decide

@[simp] theorem keyLenOf_some (c : KeyClass) : keyLenOf (some c) = keyLen c := rfl

/-- A length that names a class is that class's total, and AES192 only where it is enabled. -/
theorem classOf_eq_some {b : Bool} {len : Nat} {c : KeyClass} (h : classOf b len = some c) :
    len = totalLen c ∧ (c = .aes192 → b = true) := by
  unfold classOf at h
  split at h
  · cases h; simp_all [totalLen]
  · split at h
    · cases h; simp_all [totalLen]
    · split at h
      · cases h; simp_all [totalLen]
      · cases h

/-! ## Keys, blocks and buffers -/

/-- Byte `i` of a loaded key store: from the string below `k`, as before from `k` on. -/
theorem loadKey_getElem (key : KeyStore) (k : Nat) (data : List Byte) (i : Fin 32) :
    (loadKey key k data)[i] = if i.val < k then data.getD i.val 0 else key[i] := by
  simp [loadKey]

/-- `zeros(32)` is zero at every byte. -/
theorem zeroKey_getElem (i : Fin 32) : zeroKey[i] = 0 := by simp [zeroKey]

/-- One more byte at the end of a string moves the block up by a byte. -/
theorem be128_concat (s : List Byte) (b : Byte) :
    be128 (s ++ [b]) = (be128 s <<< 8) ||| b.setWidth 128 := by
  simp [be128, List.foldl_append]

/-- Bit `k` of the block of a string of at most 16 bytes: bit `k mod 8` of the byte that lies `k div 8` from the end. -/
theorem be128_getLsbD (s : List Byte) (hs : s.length ≤ 16) (k : Nat) :
    (be128 s).getLsbD k = (s.reverse.getD (k / 8) 0).getLsbD (k % 8) := by
  induction s using List.reverseRecOn generalizing k with
  | nil => simp [be128]
  | append_singleton s b ih =>
    have hlen : s.length + 1 ≤ 16 := by simpa using hs
    rw [be128_concat]
    by_cases hk : k < 8
    · have h0 : k / 8 = 0 := Nat.div_eq_of_lt hk
      have h1 : k % 8 = k := Nat.mod_eq_of_lt hk
      simp [BitVec.getLsbD_or, BitVec.getLsbD_setWidth, hk, h0, h1]
      intro h; omega
    · have h0 : k / 8 = (k - 8) / 8 + 1 := by omega
      have h1 : k % 8 = (k - 8) % 8 := by omega
      by_cases hk' : k < 128
      · simp [hk, hk', h0, h1, BitVec.getLsbD_of_ge b k (by omega)]
        rw [← BitVec.getLsbD_eq_getElem, ih (by omega), List.getD_eq_getElem?_getD]
        rfl
      · have hout : s.reverse[(k - 8) / 8]? = none := by simp; omega
        simp [BitVec.getLsbD_or, BitVec.getLsbD_setWidth, hk', h0, hout,
          BitVec.getLsbD_of_ge b k (by omega)]

/-- Bit `j` of byte `i` of a block. -/
theorem blockByte_getLsbD (b : Block) (i j : Nat) :
    (blockByte b i).getLsbD j = (decide (j < 8) && b.getLsbD (120 - 8 * i + j)) := by
  simp [blockByte]

/-- Byte `i` of the string of a block. -/
theorem bytes16_getElem? (b : Block) {i : Nat} (hi : i < 16) : (bytes16 b)[i]? = some (blockByte b i) := by
  simp [bytes16, hi]

/-- A block is its upper 112 bits over its block counter. -/
theorem block_toNat (c : Block) :
    c.toNat = (c.extractLsb' 16 112).toNat * 2 ^ 16 + (c.extractLsb' 0 16).toNat := by
  have := c.isLt
  simp only [BitVec.extractLsb'_toNat, Nat.shiftRight_eq_div_pow, Nat.pow_zero, Nat.div_one]
  norm_num at *
  omega

/-- An increment of width 16 adds in the block counter. -/
theorem inc_w16_low (c : Block) (b : Nat) :
    (inc .w16 c b).extractLsb' 0 16 = c.extractLsb' 0 16 + BitVec.ofNat 16 b := by
  refine BitVec.eq_of_getLsbD_eq fun k hk => ?_
  simp only [inc, BitVec.getLsbD_extractLsb', BitVec.getLsbD_append]
  simp [hk]

/-- An increment of width 16 keeps the upper 112 bits. -/
theorem inc_w16_high (c : Block) (b : Nat) :
    (inc .w16 c b).extractLsb' 16 112 = c.extractLsb' 16 112 := by
  refine BitVec.eq_of_getLsbD_eq fun k hk => ?_
  simp only [inc, BitVec.getLsbD_extractLsb', BitVec.getLsbD_append]
  simp [hk]

/-- From a fresh seeding every setting gives the keystream from block 0. -/
theorem keystream_fresh {p : Primitive} (h : p.kspos = 0) (k : KsContinuation) (w : CtrIncWidth)
    (draw : Nat → Byte) (j : Nat) : keystream k w p draw j = ksByte w p j := by
  cases k <;> simp [keystream, h]

/-- An XORed buffer is as long as the buffer. -/
@[simp] theorem xorStream_length (ks : Nat → Byte) (buf : List Byte) :
    (xorStream ks buf).length = buf.length := by simp [xorStream]

/-- Byte `j` of an XORed buffer. -/
theorem xorStream_getElem? (ks : Nat → Byte) (buf : List Byte) (j : Nat) :
    (xorStream ks buf)[j]? = buf[j]?.map (· ^^^ ks j) := by
  simp [xorStream, List.getElem?_mapIdx]

/-- The keystream of `s` depends on its primitive, its draws and its serial number. -/
theorem State.ks_congr {s t : State} (hp : s.eng.prim = t.eng.prim) (hd : s.draws = t.draws)
    (hn : s.serial = t.serial) : s.ks = t.ks := by
  funext j; simp only [State.ks, hp, State.ksDraw_congr hd hn]

/-! ## The known-answer test -/

/-- The primitive one class's test seeds is that of the fixture, whatever the registers held before. -/
theorem seededForTest_prim (e : Engine) (c : KeyClass) (f : KnownAnswer) :
    (seededForTest e c f).prim = fixturePrimitive c f := by
  have hkey : loadKey zeroKey (keyLen c) f.keySalt =
      Vector.ofFn fun i => if i.val < keyLen c then f.keySalt.getD i.val 0 else 0 := by
    simp only [loadKey, zeroKey_getElem]
  simp [seededForTest, fixturePrimitive, hkey, deriveCounter, saltBlock, saltOf, saltLen]

/-- What one class's test answers: the status of its first failing step, or a zeroized run with the draws counted on. -/
theorem testClass_cases {s : State} {c : KeyClass} {f : KnownAnswer} {r : TestRun} {x : Except Status TestRun}
    (h : testClass s c f r = x) :
    (malformed c f = true ∧ x = .error .invalidParameter) ∨
    (malformed c f = false ∧ s.allocOk r.a = false ∧ x = .error .allocationFailure) ∨
    (malformed c f = false ∧ s.allocOk r.a = true ∧ s.primOk r.p = false ∧ x = .error .cipherFailure) ∨
    (malformed c f = false ∧ s.allocOk r.a = true ∧ s.primOk r.p = true ∧ f.pt ≠ [] ∧
      s.primOk (r.p + 1) = false ∧ x = .error .cipherFailure) ∨
    (malformed c f = false ∧ s.allocOk r.a = true ∧ s.primOk r.p = true ∧
      (f.pt ≠ [] → s.primOk (r.p + 1) = true) ∧
      xorStream (ksByte Config.ctrIncWidth (fixturePrimitive c f)) f.pt ≠ f.ct ∧
      x = .error .selfTestFailure) ∨
    (malformed c f = false ∧ s.allocOk r.a = true ∧ s.primOk r.p = true ∧
      (f.pt ≠ [] → s.primOk (r.p + 1) = true) ∧
      xorStream (ksByte Config.ctrIncWidth (fixturePrimitive c f)) f.pt = f.ct ∧
      x = .ok ⟨Engine.reset, r.a + 1, nextPrimDraw r.p f⟩) := by
  subst h
  simp only [testClass, testOutput, seededForTest_prim, Engine.zeroize_eq_reset]
  split_ifs <;> simp_all

/-- Where all classes pass, the registers are zeroized. -/
theorem testClasses_ok {s : State} {r x : TestRun} :
    ∀ l, testClasses s l r = .ok x → l ≠ [] → x.eng = Engine.reset
  | [], _, hne => absurd rfl hne
  | (c, f) :: rest, h, _ => by
    simp only [testClasses] at h
    cases hc : testClass s c f r with
    | error st => rw [hc] at h; cases h
    | ok r' =>
      rw [hc] at h
      have he : r'.eng = Engine.reset := by
        rcases testClass_cases hc with ⟨_, e⟩ | ⟨_, _, e⟩ | ⟨_, _, _, e⟩ | ⟨_, _, _, _, _, e⟩ |
          ⟨_, _, _, _, _, e⟩ | ⟨_, _, _, _, _, e⟩ <;> cases e
        rfl
      by_cases hr : rest = []
      · subst hr; cases h; exact he
      · exact testClasses_ok rest h hr

/-- Where a class does not pass, the status is one of the four a test step can end with. -/
theorem testClasses_error {s : State} {r : TestRun} {st : Status} :
    ∀ l, testClasses s l r = .error st →
      st = .invalidParameter ∨ st = .allocationFailure ∨ st = .cipherFailure ∨ st = .selfTestFailure
  | [], h => by cases h
  | (c, f) :: rest, h => by
    simp only [testClasses] at h
    cases hc : testClass s c f r with
    | ok r' => rw [hc] at h; exact testClasses_error rest h
    | error st' =>
      rw [hc] at h
      cases h
      rcases testClass_cases hc with ⟨_, e⟩ | ⟨_, _, e⟩ | ⟨_, _, _, e⟩ | ⟨_, _, _, _, _, e⟩ |
        ⟨_, _, _, _, _, e⟩ | ⟨_, _, _, _, _, e⟩ <;> cases e <;> simp

/-- The fixed fixtures are well formed, so only the AES-192 one can be malformed (43_lifecycle_selftest.md R171). -/
theorem malformed_kat128 : malformed .aes128 kat128 = false := by decide

theorem malformed_kat256 : malformed .aes256 kat256 = false := by decide

/-- A self-test over a list of classes answers the first failing step's status over zeroized registers, or OK. -/
theorem selfTestOn_cases {cases : List (KeyClass × KnownAnswer)} {s t : State} (h : selfTestOn cases s = t) :
    (∃ st, testClasses s cases ⟨s.eng, 0, 0⟩ = .error st ∧ t = s.answer Engine.reset st []) ∨
    (∃ r, testClasses s cases ⟨s.eng, 0, 0⟩ = .ok r ∧ t = s.answer r.eng .ok []) := by
  subst h
  unfold selfTestOn
  cases hr : testClasses s cases ⟨s.eng, 0, 0⟩ with
  | error st => exact .inl ⟨st, rfl, by simp⟩
  | ok r => exact .inr ⟨r, rfl, rfl⟩

/-! ## The platform -/

/-- What a bus transaction does to an instance: it delivers one command that its agent may issue, or nothing. -/
theorem State.busDeliver_cases (m : BusMap) (inst : Nat) (x : BusTransaction) (d : Draws) (s : State) :
    s.busDeliver m inst x d = s ∨
    ∃ w data, busTarget m x.address = some inst ∧ m.cmdOfBytes x.cmdBytes = some w ∧
      m.dataOfBytes x.dataBytes = some data ∧ m.mayIssue x.agent inst w = true ∧
      s.busDeliver m inst x d = s.deliver (.command ⟨w, data, d⟩) := by
  by_cases ha : busTarget m x.address = some inst
  · cases hc : m.cmdOfBytes x.cmdBytes with
    | none => left; simp [State.busDeliver, busCommand, hc]
    | some w =>
      cases hd : m.dataOfBytes x.dataBytes with
      | none => left; simp [State.busDeliver, busCommand, hc, hd]
      | some data =>
        cases hi : m.mayIssue x.agent inst w with
        | false => left; simp [State.busDeliver, busCommand, hc, hd, hi]
        | true => exact .inr ⟨w, data, ha, rfl, rfl, hi, by simp [State.busDeliver, busCommand, ha, hc, hd, hi]⟩
  · left; simp [State.busDeliver, busCommand, ha]

/-- What writes to a memory-mapped port do to an instance: they deliver the one command their transaction stands for, or
nothing. -/
theorem State.busWrite_cases (m : BusMap) (inst : Nat) (x : BusAccess) (d : Draws) (s : State) :
    s.busWrite m inst x d = s ∨
    ∃ a w data, busTarget m a = some inst ∧ inRegister m inst .cmd a = true ∧
      m.cmdOfBytes (writtenBytes m inst .cmd x.writes) = some w ∧
      m.dataOfBytes (writtenBytes m inst .data x.writes) = some data ∧ m.mayIssue x.agent inst w = true ∧
      s.busWrite m inst x d = s.deliver (.command ⟨w, data, d⟩) := by
  cases hf : x.writes.find? fun w => inRegister m inst .cmd w.1 with
  | none => left; simp [State.busWrite, BusAccess.transaction, hf]
  | some v =>
    have hreg := List.find?_some hf
    rcases State.busDeliver_cases m inst
      ⟨x.agent, v.1, writtenBytes m inst .cmd x.writes, writtenBytes m inst .data x.writes⟩ d s with
      h | ⟨w, data, h1, h2, h3, h4, h5⟩
    · left; simpa [State.busWrite, BusAccess.transaction, hf] using h
    · exact .inr ⟨v.1, w, data, h1, hreg, h2, h3, h4, by
        simpa [State.busWrite, BusAccess.transaction, hf] using h5⟩

/-- A read shows nothing but the latest response: not the registers (10_state.md R31). -/
theorem State.busRead_congr {m : BusMap} {agent inst address : Nat} {s t : State} (h : s.resp = t.resp) :
    s.busRead m agent inst address = t.busRead m agent inst address := by
  simp only [State.busRead, h]

/-- A transaction reaches no other instance (60_exceptions.md R211). -/
theorem State.busDeliver_other {m : BusMap} {inst : Nat} {x : BusTransaction} (d : Draws) (s : State)
    (h : busTarget m x.address ≠ some inst) : s.busDeliver m inst x d = s := by
  simp [State.busDeliver, busCommand, h]

end Sys2Proof.Machine
end

