-- ==== Sys2Proof/Laws/Exec.lean ====
section
/-!
SUPPORT. One inversion lemma for each command: if it answers a next state, then one of these cases holds. And one for
the step.
-/

namespace Sys2Proof.Machine

theorem execAlloc_cases {klen tlen : Nat} {s t : State} (h : exec (.alloc klen tlen) s = .next t) :
    (s.eng.lc ≠ .unalloc ∧ t = s.fail .invalidState) ∨
    (s.eng.lc = .unalloc ∧ classOf Config.aes192Enabled klen = none ∧ t = s.fail .invalidParameter) ∨
    (∃ c, s.eng.lc = .unalloc ∧ classOf Config.aes192Enabled klen = some c ∧ s.allocOk 0 = false ∧
      t = s.fail .allocationFailure) ∨
    (∃ c, s.eng.lc = .unalloc ∧ classOf Config.aes192Enabled klen = some c ∧ s.allocOk 0 = true ∧
      t = s.answer (s.eng.bindClass c) .ok []) := by
  simp only [exec, execAlloc, Host.Outcome.next.injEq] at h
  subst h
  cases hc : classOf Config.aes192Enabled klen <;> simp only [] <;> split_ifs <;> simp_all

theorem execInit_cases {s t : State} (h : exec .init s = .next t) :
    (s.eng.lc = .unalloc ∧ t = s.fail .invalidState) ∨
    (s.eng.lc ≠ .unalloc ∧ s.data.length < keyLenOf s.eng.kclass + saltLen ∧ t = s.fail .invalidParameter) ∨
    (s.eng.lc ≠ .unalloc ∧ keyLenOf s.eng.kclass + saltLen ≤ s.data.length ∧
      t = s.answer (s.eng.loadContext s.data) .ok []) := by
  simp only [exec, execInit, Host.Outcome.next.injEq] at h
  subst h
  by_cases hd : s.data.length < keyLenOf s.eng.kclass + saltLen
  · cases hl : s.eng.lc <;> simp [hd]
  · cases hl : s.eng.lc <;> simp [hd] <;> omega

theorem execDealloc_cases {s t : State} (h : exec .dealloc s = .next t) :
    t = s.answer Engine.reset .ok [] := by
  simpa [exec, execDealloc, eq_comm] using h

theorem execSetIv_cases {dir : Direction} {s t : State} (h : exec (.setIv dir) s = .next t) :
    ((s.eng.lc = .unalloc ∨ s.eng.lc = .alloc) ∧ t = s.fail .invalidState) ∨
    ((s.eng.lc = .init ∨ s.eng.lc = .ivset ∨ s.eng.lc = .processed) ∧ s.data.length < 16 ∧
      t = s.fail .invalidParameter) ∨
    ((s.eng.lc = .init ∨ s.eng.lc = .ivset ∨ s.eng.lc = .processed) ∧ 16 ≤ s.data.length ∧ s.primOk 0 = true ∧
      t = s.answer (s.eng.derive (nonceOf s.data)).seedFromContext .ok []) ∨
    ((s.eng.lc = .init ∨ s.eng.lc = .ivset ∨ s.eng.lc = .processed) ∧ 16 ≤ s.data.length ∧ s.primOk 0 = false ∧
      t = s.answer (s.eng.derive (nonceOf s.data)).cipherFailed .cipherFailure []) := by
  simp only [exec, execSetIv, Host.Outcome.next.injEq] at h
  subst h
  cases hl : s.eng.lc <;> simp <;> split_ifs <;> simp_all

theorem execProcess_cases {dir : Direction} {s t : State} (h : exec (.process dir) s = .next t) :
    ((s.eng.lc = .unalloc ∨ s.eng.lc = .alloc ∨ s.eng.lc = .init) ∧ t = s.fail .invalidState) ∨
    ((s.eng.lc = .ivset ∨ s.eng.lc = .processed) ∧ Config.maxDataLen < s.data.length ∧
      t = s.fail .invalidParameter) ∨
    ((s.eng.lc = .ivset ∨ s.eng.lc = .processed) ∧ s.data = [] ∧
      t = s.answer { s.eng with lc := .processed } .ok []) ∨
    ((s.eng.lc = .ivset ∨ s.eng.lc = .processed) ∧ s.data ≠ [] ∧ s.data.length ≤ Config.maxDataLen ∧
      s.primOk 0 = true ∧
      t = s.answer { s.eng.advance s.data.length with lc := .processed } .ok (xorStream s.ks s.data)) ∨
    ((s.eng.lc = .ivset ∨ s.eng.lc = .processed) ∧ s.data ≠ [] ∧ s.data.length ≤ Config.maxDataLen ∧
      s.primOk 0 = false ∧ t = s.answer s.eng.cipherFailed .cipherFailure []) := by
  simp only [exec, execProcess, Host.Outcome.next.injEq] at h
  subst h
  cases hl : s.eng.lc <;> simp <;> split_ifs <;> simp_all

theorem execSelfTest_cases {s t : State} (h : exec .selfTest s = .next t) :
    (s.eng.lc ≠ .unalloc ∧ t = s.fail .invalidState) ∨
    (∃ st, s.eng.lc = .unalloc ∧
      testClasses s (selfTestCases Config.aes192Enabled Config.kat192) ⟨s.eng, 0, 0⟩ = .error st ∧
      t = s.answer Engine.reset st []) ∨
    (∃ r, s.eng.lc = .unalloc ∧
      testClasses s (selfTestCases Config.aes192Enabled Config.kat192) ⟨s.eng, 0, 0⟩ = .ok r ∧
      t = s.answer r.eng .ok []) := by
  simp only [exec, execSelfTest, Host.Outcome.next.injEq] at h
  subst h
  by_cases hl : s.eng.lc = .unalloc
  · right
    simp only [hl, ne_eq, not_true_eq_false, if_false, true_and]
    exact selfTestOn_cases rfl
  · exact .inl ⟨hl, by simp [hl]⟩

theorem execGetDesc_cases {s t : State} (h : exec .getDesc s = .next t) :
    t = s.answer s.eng .ok Config.descString := by
  simpa [exec, execGetDesc, eq_comm] using h

/-- A run takes its first step and goes on from there. -/
theorem run_next {k : Nat} {s t : State} (h : step s = .next t) :
    Host.Core.run core (k + 1) s = Host.Core.run core k t := by
  have h' : core.step s = .next t := h
  simp only [Host.Core.run, h']

/-- What a step does: nothing on an empty port, a reset, the answer to an ILLEGAL word, or a decoded instruction. -/
theorem step_cases {s t : State} (h : step s = .next t) :
    (s.inbox = [] ∧ t = s) ∨
    (∃ rest, s.inbox = .reset :: rest ∧ t = s.takeReset rest) ∨
    (∃ c rest why, s.inbox = .command c :: rest ∧ decode c.cmd = .error why ∧
      t = ((s.takeCommand c rest).fail .illegalCommand).retire) ∨
    (∃ c rest i u, s.inbox = .command c :: rest ∧ decode c.cmd = .ok i ∧
      exec i (s.takeCommand c rest) = .next u ∧ t = u.retire) := by
  unfold step at h
  split at h
  · rename_i hin
    cases h
    exact .inl ⟨hin, rfl⟩
  · rename_i rest hin
    cases h
    exact .inr (.inl ⟨rest, hin, rfl⟩)
  · rename_i c rest hin
    unfold runWord at h
    split at h
    · rename_i i hi
      cases hu : exec i (s.takeCommand c rest) with
      | next u =>
        rw [hu] at h
        cases h
        exact .inr (.inr (.inr ⟨c, rest, i, u, hin, hi, hu, rfl⟩))
      | fault f => cases f
      | refused r => rw [hu] at h; cases h
    · rename_i why hw
      cases h
      exact .inr (.inr (.inl ⟨c, rest, why, hin, hw, rfl⟩))

end Sys2Proof.Machine
end

