-- ==== Sys2Proof/Laws/PerInstr.lean ====
section
/-!
SUPPORT. One family of facts about the syntax of each instruction: its command word selects the row of 30_encoding.md
R73 that the table gives its mnemonic.
-/

namespace Sys2Proof.Laws.SelectsRow

/-- The match and mask of an instruction's row (30_encoding.md R73). -/
def rowOf : Instr → Word × Word
  | .alloc _ _ => (0x00000001, 0xFF0000FF)
  | .init => (0x00000002, 0xFFFFFFFF)
  | .setIv _ => (0x00000003, 0xFFFFFFEF)
  | .process _ => (0x00000004, 0xFFFFFFEF)
  | .dealloc => (0x00000005, 0xFFFFFFFF)
  | .getDesc => (0x00000006, 0xFFFFFFFF)
  | .selfTest => (0x00000007, 0xFFFFFFFF)

/-- The instruction's word, masked, is its row's match. -/
def Statement (i : Instr) : Prop := encode i &&& (rowOf i).2 = (rowOf i).1

theorem alloc (klen tlen : Nat) : Statement (.alloc klen tlen) := by
  have h : ∀ a b : BitVec 8,
      (0#8 ++ b ++ a ++ 0#3 ++ 0#1 ++ 1#4 : BitVec 32) &&& 0xFF0000FF = 0x00000001 := by
    intro a b
    ext i hi
    simp only [BitVec.getElem_and, BitVec.getElem_append, BitVec.getElem_zero]
    interval_cases i <;> simp
  exact h _ _

theorem init : Statement .init := by unfold Statement; decide

theorem setIv (dir : Direction) : Statement (.setIv dir) := by
  cases dir <;> (unfold Statement; decide)

theorem process (dir : Direction) : Statement (.process dir) := by
  cases dir <;> (unfold Statement; decide)

theorem dealloc : Statement .dealloc := by unfold Statement; decide

theorem getDesc : Statement .getDesc := by unfold Statement; decide

theorem selfTest : Statement .selfTest := by unfold Statement; decide

end Sys2Proof.Laws.SelectsRow
end

