-- ==== Sys2Proof/Tests/Slice0.lean ====
section
/-!
SUPPORT. Tests whose expected values are those of spec/95_test_vectors.md, and for every statement with hypotheses a
state that meets them.
-/

namespace Sys2Proof.Tests

open Sys2Proof Sys2Proof.Machine

/-! ## The spec's fixed data and the states its vectors start from -/

/-- All draws true (95_test_vectors.md, conventions). -/
def drawsTrue : Draws := ⟨List.replicate 3 true, List.replicate 6 true, []⟩

/-- All draws false. -/
def drawsFalse : Draws := ⟨List.replicate 3 false, List.replicate 6 false, []⟩

/-- `KS128`. -/
def ks128 : List Byte :=
  [0x2b, 0x7e, 0x15, 0x16, 0x28, 0xae, 0xd2, 0xa6, 0xab, 0xf7, 0x15, 0x88, 0x09, 0xcf, 0x4f, 0x3c,
   0xf0, 0xf1, 0xf2, 0xf3, 0xf4, 0xf5, 0xf6, 0xf7, 0xf8, 0xf9, 0xfa, 0xfb, 0xfc, 0xfd]

/-- `OFF0`. -/
def off0 : Block := 0xf0f1f2f3f4f5f6f7f8f9fafbfcfd0000

/-- The key store of I1. -/
def keyI1 : KeyStore :=
  #v[0x2b, 0x7e, 0x15, 0x16, 0x28, 0xae, 0xd2, 0xa6, 0xab, 0xf7, 0x15, 0x88, 0x09, 0xcf, 0x4f, 0x3c,
     0, 0, 0, 0, 0, 0, 0, 0, 0, 0, 0, 0, 0, 0, 0, 0]

/-- The end state of A1. -/
def afterA1 : Engine := { Engine.reset with lc := .alloc, kclass := some .aes128 }

/-- The end state of I1. -/
def afterI1 : Engine :=
  { Engine.reset with lc := .init, kclass := some .aes128, key := keyI1, offset := off0, counter := off0 }

/-- The end state of S1. -/
def afterS1 : Engine :=
  { afterI1 with lc := .ivset, prim := ⟨true, some .aes128, keyI1, off0, 0⟩ }

/-- A state in the middle of a command: these registers, this DATA, these draws. -/
def running (e : Engine) (data : List Byte) (d : Draws) : State :=
  { State.reset with eng := e, data := data, draws := d }

/-- A state with these registers and one command on its port. -/
def waiting (e : Engine) (w : Word) (data : List Byte) (d : Draws) : State :=
  { State.reset with eng := e, inbox := [.command ⟨w, data, d⟩] }

/-- The next state of an outcome; `s` where there is none. -/
def nextOr (s : State) : Host.Outcome State Fault Refusal → State
  | .next t => t
  | .fault _ => s
  | .refused _ => s

/-- The registers an instruction leaves. -/
def engAfter (i : Instr) (s : State) : Engine := (nextOr s (exec i s)).eng

/-- The response an instruction gives. -/
def respAfter (i : Instr) (s : State) : Option Response := (nextOr s (exec i s)).resp

/-- The state after one step. -/
def stepped (s : State) : State := nextOr s (step s)

theorem exec_eq_nextOr (i : Instr) (s : State) : exec i s = .next (nextOr s (exec i s)) := by cases i <;> rfl

theorem step_eq_stepped (s : State) : step s = .next (stepped s) := by
  unfold stepped step
  split
  · rfl
  · rfl
  · unfold runWord
    split
    · rename_i i _
      cases i <;> rfl
    · rfl

/-! ## Well-formedness: the ill-formed terms are refused, the largest operands are not -/

theorem test_wf_klen_256 : Instr.wf (.alloc 256 0) = false := by decide
theorem test_wf_tlen_256 : Instr.wf (.alloc 0 256) = false := by decide
theorem test_wf_largest : Instr.wf (.alloc 255 255) = true := by decide

/-! ## Decoding: words written out from 30_encoding.md R71 and R73, and the vectors W of 95_test_vectors.md -/

theorem test_decode_W3_alloc : decode 0x00001E01 = .ok (.alloc 30 0) := by decide
theorem test_decode_W4_tlen : decode 0x00FF1E01 = .ok (.alloc 30 255) := by decide
theorem test_decode_init : decode 0x00000002 = .ok .init := by decide
theorem test_decode_setIv : decode 0x00000003 = .ok (.setIv .encrypt) := by decide
theorem test_decode_W6_setIv_dec : decode 0x00000013 = .ok (.setIv .decrypt) := by decide
theorem test_decode_process : decode 0x00000004 = .ok (.process .encrypt) := by decide
theorem test_decode_W10_process_dec : decode 0x00000014 = .ok (.process .decrypt) := by decide
theorem test_decode_dealloc : decode 0x00000005 = .ok .dealloc := by decide
theorem test_decode_getDesc : decode 0x00000006 = .ok .getDesc := by decide
theorem test_decode_selfTest : decode 0x00000007 = .ok .selfTest := by decide
theorem test_decode_W1_zero : decode 0x00000000 = .error .reservedOpcode := by decide
theorem test_decode_W7_bit5 : decode 0x00000023 = .error .reservedBit := by decide
theorem test_decode_W8_klen_on_init : decode 0x00000102 = .error .unusedField := by decide
theorem test_decode_W13_opF : decode 0x0000000F = .error .reservedOpcode := by decide

/-! ## One command each (95_test_vectors.md, parts 2.2 to 2.8) -/

theorem test_A1 :
    engAfter (.alloc 30 0) (running Engine.reset [] drawsTrue) = afterA1 ∧
    respAfter (.alloc 30 0) (running Engine.reset [] drawsTrue) = some ⟨.ok, []⟩ := by decide

theorem test_A19 :
    engAfter (.alloc 31 0) (running Engine.reset [] drawsFalse) = Engine.reset ∧
    respAfter (.alloc 31 0) (running Engine.reset [] drawsFalse) = some ⟨.invalidParameter, []⟩ := by decide

theorem test_I1 :
    engAfter .init (running afterA1 ks128 drawsTrue) = afterI1 ∧
    respAfter .init (running afterA1 ks128 drawsTrue) = some ⟨.ok, []⟩ := by decide

theorem test_I7 :
    (engAfter .init (running afterA1 (List.replicate 16 0 ++ List.replicate 14 0xff) drawsTrue)).offset =
      0xffffffffffffffffffffffffffff0000 := by decide

theorem test_S1 :
    engAfter (.setIv .encrypt) (running afterI1 (List.replicate 16 0) drawsTrue) = afterS1 := by decide

theorem test_S3 :
    (engAfter (.setIv .encrypt) (running afterI1 (List.replicate 14 0 ++ [0xff, 0xff]) drawsTrue)).counter =
      0xf0f1f2f3f4f5f6f7f8f9fafbfcfdffff := by decide

theorem test_K7 :
    engAfter (.process .encrypt) (running afterS1 [] drawsFalse) = { afterS1 with lc := .processed } ∧
    respAfter (.process .encrypt) (running afterS1 [] drawsFalse) = some ⟨.ok, []⟩ := by decide

theorem test_K10 :
    engAfter (.process .encrypt) (running afterS1 [0, 0, 0, 0] drawsFalse) = afterI1 ∧
    respAfter (.process .encrypt) (running afterS1 [0, 0, 0, 0] drawsFalse) = some ⟨.cipherFailure, []⟩ := by
  decide

theorem test_X1 :
    engAfter .dealloc (running { afterS1 with lc := .processed } [] drawsTrue) = Engine.reset := by decide

theorem test_X5 :
    respAfter .dealloc (running Engine.reset (List.replicate 100 0) drawsFalse) = some ⟨.ok, []⟩ := by decide

theorem test_Q1 :
    engAfter .getDesc (running afterS1 [] drawsTrue) = afterS1 ∧
    respAfter .getDesc (running afterS1 [] drawsTrue) = some ⟨.ok, Config.descString⟩ := ⟨rfl, rfl⟩

theorem test_T3 :
    engAfter .selfTest (running Engine.reset [] ⟨[true], [true, false], []⟩) = Engine.reset ∧
    respAfter .selfTest (running Engine.reset [] ⟨[true], [true, false], []⟩) = some ⟨.cipherFailure, []⟩ := by
  decide

theorem test_T8 :
    engAfter .selfTest (running afterA1 [] drawsTrue) = afterA1 ∧
    respAfter .selfTest (running afterA1 [] drawsTrue) = some ⟨.invalidState, []⟩ := by decide

/-- P3 line 7: the all-zero word in INIT. -/
theorem test_P3_line7 :
    (stepped (waiting afterI1 0 [] drawsTrue)).eng = afterI1 ∧
    (stepped (waiting afterI1 0 [] drawsTrue)).resp = some ⟨.illegalCommand, []⟩ := by decide

/-! ## The platform (92_eei_decisions.md D25, 60_exceptions.md R208, R211) -/

/-- A platform of two instances, at 0x10 to 0x1F and 0x20 to 0x2F, each with CMD in its bytes 0 to 3, big-endian, DATA
a queue at byte 4, STATUS at byte 5, RDATA's length at byte 6 and RDATA's first bytes at 8 to 15. Agent 0 alone may issue
commands and read. -/
def testBus : BusMap where
  instances := [0, 1]
  portAddresses := fun inst => (List.range 16).map (· + 0x10 * (inst + 1))
  registerAt := fun inst a =>
    let i := a - 0x10 * (inst + 1)
    if a < 0x10 * (inst + 1) ∨ 16 ≤ i ∨ i = 7 then none
    else if i < 4 then some (.cmd, i)
    else if i = 4 then some (.data, 0)
    else if i = 5 then some (.status, 0)
    else if i = 6 then some (.rdataLength, 0)
    else some (.rdata, i - 8)
  cmdOfBytes := fun bs =>
    match bs with
    | [a, b, c, d] => some (a ++ b ++ c ++ d)
    | _ => none
  dataOfBytes := some
  bytesOfRdata := id
  bytesOfStatus := fun st => [st.setWidth 8]
  bytesOfLength := fun n => [BitVec.ofNat 8 n]
  mayRead := fun agent _ => agent = 0
  mayIssue := fun agent _ _ => agent = 0

theorem test_bus_delivers :
    busCommand testBus 1 ⟨0, 0x20, [0x00, 0x00, 0x1E, 0x01], [0xab]⟩ drawsTrue =
      some ⟨0x00001E01, [0xab], drawsTrue⟩ := by decide

theorem test_bus_other_instance_and_agent :
    State.reset.busDeliver testBus 0 ⟨0, 0x20, [0x00, 0x00, 0x1E, 0x01], []⟩ drawsTrue = State.reset ∧
    State.reset.busDeliver testBus 1 ⟨1, 0x20, [0x00, 0x00, 0x1E, 0x01], []⟩ drawsTrue = State.reset := by
  decide

/-- Writes in any order of CMD's bytes, and in the order of DATA's, make the command. -/
theorem test_bus_registers_written :
    (BusAccess.mk 0 [(0x24, 0xab), (0x23, 0x01), (0x22, 0x1E), (0x24, 0xcd), (0x21, 0), (0x20, 0)]).transaction
      testBus 1 = some ⟨0, 0x23, [0x00, 0x00, 0x1E, 0x01], [0xab, 0xcd]⟩ := by decide

/-- The response registers of a state that has answered, and an agent that may not read them. -/
theorem test_bus_registers_read :
    let s : State := { State.reset with resp := some ⟨.invalidState, [0x41, 0x45]⟩ }
    s.busRead testBus 0 1 0x25 = some 5 ∧ s.busRead testBus 0 1 0x26 = some 2 ∧
    s.busRead testBus 0 1 0x29 = some 0x45 ∧ s.busRead testBus 0 1 0x2A = none ∧
    s.busRead testBus 0 1 0x20 = none ∧ s.busRead testBus 1 1 0x25 = none := by decide

/-! ## Witnesses: for each statement with hypotheses, states and operands that meet them -/

/-- A 16-byte nonce of zeros. -/
def zeros16 : List Byte := List.replicate 16 0

/-- A context of any class with `LC` = ALLOC. -/
def allocated (c : KeyClass) : Engine := { Engine.reset with lc := .alloc, kclass := some c }

/-- One byte more than PROCESS accepts. -/
def tooLong : List Byte := List.replicate (Config.maxDataLen + 1) 0

theorem tooLong_length : Config.maxDataLen < tooLong.length := by simp [tooLong]

theorem le_maxDataLen {n : Nat} (h : n ≤ 32) : n ≤ Config.maxDataLen := by unfold Config.maxDataLen; omega

theorem witness_DecodeEncodeIsIdentity : WellFormed (.alloc 255 255) := by decide

theorem witness_EncodeDecodeIsIdentity : decode 0x00FFFF01 = .ok (.alloc 255 255) := by decide

theorem witness_IllegalWordAnswersIllegalCommand :
    (0x00000010 : Word) &&& 0xF = 0 ∧ 8 ≤ ((0x00000008 : Word) &&& 0xF).toNat ∧
    (0x00000082 : Word) &&& 0xFF0000E0 ≠ 0 ∧
    (waiting afterI1 0 [] drawsTrue).inbox = [.command ⟨0, [], drawsTrue⟩] ∧
    decode 0 = .error .reservedOpcode := by decide

theorem witness_StepRunsDecodedInstruction :
    (waiting afterI1 0x00000013 zeros16 drawsTrue).inbox = [.command ⟨0x00000013, zeros16, drawsTrue⟩] ∧
    decode 0x00000013 = .ok (.setIv .decrypt) := by decide

theorem witness_PlacedWordRunsNext :
    State.reset.inbox = [] ∧ decode 0x00001E01 = .ok (.alloc 30 0) := by decide

theorem witness_ResetEventZeroesEveryRegister :
    ({ running afterS1 [] drawsTrue with inbox := [.reset] }).inbox = [.reset] := rfl

theorem witness_ResetRegisterValues :
    (∃ t, exec .dealloc (running afterS1 [] drawsTrue) = .next t) ∧
    (running Engine.reset [] drawsTrue).eng.lc = .unalloc ∧
    ∃ t, exec .selfTest (running Engine.reset [] drawsTrue) = .next t :=
  ⟨⟨_, rfl⟩, rfl, ⟨_, rfl⟩⟩

theorem witness_BlocksAreBigEndian : (List.replicate 15 0 ++ [0xff] : List Byte).length = 16 ∧
    (List.replicate 15 0 ++ [0xff] : List Byte)[15]? = some 0xff := by decide

theorem witness_SaltBlockMasksLowBits : (List.replicate 14 0xff : List Byte).length = 14 := by decide

theorem witness_DeriveCounterIsBytewiseXor : zeros16.length = 16 ∧ zeros16[15]? = some 0 := by decide

theorem witness_AllocBindsClass :
    afterS1.lc ≠ .unalloc ∧ Engine.reset.lc = .unalloc ∧
    ((31 : Nat) ≠ 30 ∧ ((31 : Nat) = 38 → Config.aes192Enabled = false) ∧ (31 : Nat) ≠ 46) ∧
    (running Engine.reset [] drawsTrue).allocOk 0 = true ∧
    (running Engine.reset [] drawsFalse).allocOk 0 = false :=
  ⟨by decide, rfl, ⟨by decide, fun h => absurd h (by decide), by decide⟩, rfl, rfl⟩

/-- `KLEN` = 38 falls under exactly one clause, whichever way AES-192 is built. -/
theorem witness_AllocBindsClass_38 :
    (((38 : Nat) = 38 → Config.aes192Enabled = false) ∧
      ¬ ((38 : Nat) = 38 ∧ Config.aes192Enabled = true ∧ KeyClass.aes192 = .aes192)) ∨
    (¬ ((38 : Nat) = 38 → Config.aes192Enabled = false) ∧
      ((38 : Nat) = 38 ∧ Config.aes192Enabled = true ∧ KeyClass.aes192 = .aes192)) := by
  cases Config.aes192Enabled <;> simp

theorem witness_InitLoadsKeyAndSalt :
    Engine.reset.lc = .unalloc ∧ afterA1.lc ≠ .unalloc ∧ afterA1.kclass = some .aes128 ∧
    (ks128.take 29).length < keyLen .aes128 + 14 ∧ keyLen .aes128 + 14 ≤ ks128.length := by decide

theorem witness_InitFillsKeySlots (c : KeyClass) :
    (allocated c).lc ≠ .unalloc ∧ (allocated c).kclass = some c ∧
    totalLen c ≤ (List.replicate 46 (0xff : Byte)).length ∧
    ∀ i : Fin 32, keyLen c ≤ i.val → (allocated c).key[i] = 0 :=
  ⟨by simp [allocated], rfl, by cases c <;> decide, fun i _ => zeroKey_getElem i⟩

theorem witness_SetIvDerivesAndSeeds :
    Engine.reset.lc = .unalloc ∧ afterA1.lc = .alloc ∧ afterI1.lc = .init ∧ afterS1.lc = .ivset ∧
    (zeros16.take 15).length < 16 ∧ 16 ≤ zeros16.length ∧
    (running afterI1 zeros16 drawsFalse).primOk 0 = false ∧
    (running afterI1 zeros16 drawsTrue).primOk 0 = true := by decide

theorem witness_SetIvIsDeterminedByContextAndNonce :
    afterI1.offset = afterS1.offset ∧ afterI1.kclass = afterS1.kclass ∧ afterI1.key = afterS1.key ∧
    (zeros16 ++ [1]).take 16 = zeros16.take 16 ∧
    respAfter (.setIv .encrypt) (running afterI1 (zeros16 ++ [1]) drawsTrue) = some ⟨.ok, []⟩ ∧
    respAfter (.setIv .decrypt) (running afterS1 zeros16 drawsTrue) = some ⟨.ok, []⟩ := by decide

theorem witness_SetIvTakesLowBitsFromNonce :
    afterI1.offset.extractLsb' 0 16 = 0 ∧ afterI1.lc = .init ∧ 16 ≤ zeros16.length := by decide

theorem witness_ProcessXorsKeystream :
    Engine.reset.lc = .unalloc ∧ afterA1.lc = .alloc ∧ afterI1.lc = .init ∧ afterS1.lc = .ivset ∧
    Config.maxDataLen < tooLong.length ∧ ([] : List Byte).length = 0 ∧
    0 < tooLong.tail.length ∧ tooLong.tail.length = Config.maxDataLen ∧
    (running afterS1 tooLong.tail drawsFalse).primOk 0 = false ∧
    (running afterS1 tooLong.tail drawsTrue).primOk 0 = true := by
  have h : tooLong.tail.length = Config.maxDataLen := by simp [tooLong]
  exact ⟨rfl, rfl, rfl, rfl, tooLong_length, rfl, by rw [h]; exact le_maxDataLen (by decide), h, rfl, rfl⟩

theorem witness_ProcessOfNothingSucceeds :
    (running afterS1 [] drawsFalse).eng.lc = .ivset ∧ (running afterS1 [] drawsFalse).data = [] := by decide

theorem witness_KeystreamEncryptsSuccessiveCounters : afterS1.prim.pkclass = some .aes128 := rfl

theorem witness_KeystreamStartFollowsContinuation :
    afterS1.prim.kspos = 0 ∧ (afterS1.advance 1).prim.kspos ≠ 0 ∧
    (running afterS1 [] ⟨[], [], [0xab]⟩).draws.ksBytes[0]? = some 0xab ∧
    respAfter (.setIv .encrypt) (running afterI1 zeros16 drawsTrue) = some ⟨.ok, []⟩ := by decide

theorem witness_KeystreamWrapsAtSixteenBits :
    1048575 < 16 * (2 ^ 16 - (afterS1.prim.pctr0.extractLsb' 0 16).toNat) ∧
    15 < 16 * (2 ^ 16 - (({ afterS1.prim with pctr0 := 0xffff } : Primitive).pctr0.extractLsb' 0 16).toNat) := by
  decide

/-- P5, in two contexts: the ciphertext of the first run is on the second's port. -/
theorem witness_EncryptThenDecryptRestoresBuffer :
    ∃ (s s' t : State) (y : List Byte),
      s.eng.lc = .init ∧ s'.eng.lc = .ivset ∧ s.eng.kclass = s'.eng.kclass ∧ s.eng.key = s'.eng.key ∧
      s.eng.offset = s'.eng.offset ∧ zeros16.length = 16 ∧ ([0x48, 0x65] : List Byte).length ≤ Config.maxDataLen ∧
      (drawsTrue.primOk[0]?).getD (Config.freePrimOk (s.serial + 1) 0) = true ∧
      (drawsTrue.primOk[0]?).getD (Config.freePrimOk (s.serial + 2) 0) = true ∧
      (drawsTrue.primOk[0]?).getD (Config.freePrimOk (s'.serial + 1) 0) = true ∧
      (drawsTrue.primOk[0]?).getD (Config.freePrimOk (s'.serial + 2) 0) = true ∧
      s.inbox = [.command ⟨0x00000003, zeros16, drawsTrue⟩, .command ⟨0x00000004, [0x48, 0x65], drawsTrue⟩] ∧
      Host.Core.run core 2 s = .next t ∧ t.resp = some ⟨.ok, y⟩ ∧
      s'.inbox = [.command ⟨0x00000013, zeros16, drawsTrue⟩, .command ⟨0x00000014, y, drawsTrue⟩] :=
  ⟨{ running afterI1 [] Draws.free with
      inbox := [.command ⟨0x00000003, zeros16, drawsTrue⟩, .command ⟨0x00000004, [0x48, 0x65], drawsTrue⟩] },
    { running afterS1 [] Draws.free with
      inbox := [.command ⟨0x00000013, zeros16, drawsTrue⟩, .command ⟨0x00000014, _, drawsTrue⟩] },
    _, _, rfl, rfl, rfl, rfl, rfl, rfl, le_maxDataLen (by decide), rfl, rfl, rfl, rfl, rfl, rfl, rfl, rfl⟩

theorem witness_ProcessWorksByteByByte :
    ∃ out out' t t',
      exec (.process .encrypt) (running afterS1 [1, 2] drawsTrue) = .next t ∧ t.resp = some ⟨.ok, out⟩ ∧
      exec (.process .decrypt) (running afterS1 [1] drawsTrue) = .next t' ∧ t'.resp = some ⟨.ok, out'⟩ ∧
      (running afterS1 [1, 2] drawsTrue).data[0]? = (running afterS1 [1] drawsTrue).data[0]? ∧
      (running afterS1 [1, 2] drawsTrue).ks 0 = (running afterS1 [1] drawsTrue).ks 0 :=
  ⟨_, _, _, _, rfl, rfl, rfl, rfl, rfl, rfl⟩

theorem witness_SelfTestEndsZeroized : afterA1.lc ≠ .unalloc ∧ Engine.reset.lc = .unalloc := by decide

theorem witness_SelfTestOkExactlyWhenEveryClassPasses :
    Engine.reset.lc = .unalloc ∧ ∃ t, exec .selfTest (running Engine.reset [] drawsTrue) = .next t :=
  ⟨rfl, _, rfl⟩

/-- A well-formed fixture with nothing to process, which passes whatever `AES_ENC` is. -/
def emptyKat (c : KeyClass) : KnownAnswer := ⟨List.replicate (totalLen c) 0, zeros16, [], []⟩

/-- An AES-256 fixture whose one ciphertext byte is wrong, whatever `AES_ENC` is. -/
def wrongKat : KnownAnswer where
  keySalt := kat256.keySalt
  nonce := kat256.nonce
  pt := [0]
  ct := [ksByte Config.ctrIncWidth (fixturePrimitive .aes256 kat256) 0 ^^^ 1]

/-- Two classes, the first of which passes where its draws are true; the second is put to each clause. -/
def twoClasses (f : KnownAnswer) : List (KeyClass × KnownAnswer) :=
  [(.aes128, emptyKat .aes128), (.aes256, f)]

/-- The premises on the second of two classes. -/
theorem witness_SelfTestReportsFirstFailure (f : KnownAnswer) (a p q : Bool) :
    (twoClasses f)[1]? = some (.aes256, f) ∧ 1 = primDraws ((twoClasses f).take 1) ∧
    ∀ (m : Nat) (c' : KeyClass) (f' : KnownAnswer), m < 1 → (twoClasses f)[m]? = some (c', f') →
      Passes (running Engine.reset [] ⟨[true, a], [true, p, q], []⟩) m
        (primDraws ((twoClasses f).take m)) c' f' := by
  refine ⟨rfl, rfl, fun m c' f' hm h => ?_⟩
  obtain rfl : m = 0 := by omega
  simp only [twoClasses, List.getElem?_cons_zero, Option.some.injEq, Prod.mk.injEq] at h
  obtain ⟨rfl, rfl⟩ := h
  exact ⟨rfl, rfl, rfl, rfl, rfl, fun h => absurd rfl h, fun j b h => by simp [emptyKat] at h⟩

/-- The premises of each clause: a malformed fixture, each false draw, a differing output. -/
theorem witness_SelfTestReportsFirstFailure_clauses :
    ({ kat256 with keySalt := [] } : KnownAnswer).keySalt.length ≠ totalLen .aes256 ∧
    (running Engine.reset [] ⟨[true, false], [true], []⟩).allocOk 1 = false ∧
    (running Engine.reset [] ⟨[true, true], [true, false], []⟩).primOk 1 = false ∧
    (running Engine.reset [] ⟨[true, true], [true, true, false], []⟩).primOk 2 = false ∧
    kat256.pt ≠ [] ∧ wrongKat.keySalt.length = totalLen .aes256 ∧ wrongKat.nonce.length = 16 ∧
    wrongKat.pt.length = wrongKat.ct.length ∧ wrongKat.pt[0]? = some 0 ∧
    wrongKat.ct[0]? ≠ some (0 ^^^ ksByte Config.ctrIncWidth (fixturePrimitive .aes256 wrongKat) 0) := by
  refine ⟨by decide, by decide, by decide, by decide, by decide, by decide, by decide,
    by simp [wrongKat], by simp [wrongKat], ?_⟩
  change some (ksByte Config.ctrIncWidth (fixturePrimitive .aes256 kat256) 0 ^^^ 1) ≠
    some (0 ^^^ ksByte Config.ctrIncWidth (fixturePrimitive .aes256 kat256) 0)
  generalize ksByte Config.ctrIncWidth (fixturePrimitive .aes256 kat256) 0 = b
  intro h
  have h0 := congrArg (fun x : Byte => x.getLsbD 0) (Option.some.inj h)
  simp at h0

theorem witness_SelfTestFailureIsNotLatched :
    ∃ t, exec .selfTest (running Engine.reset [] drawsFalse) = .next t ∧
      respAfter .selfTest (running Engine.reset [] drawsFalse) = some ⟨.allocationFailure, []⟩ ∧
      (running t.eng [] drawsTrue).eng = t.eng ∧ (running t.eng [] drawsTrue).allocOk 0 = true :=
  ⟨_, rfl, by decide, rfl, rfl⟩

theorem witness_EveryCommandCompletesAndAnswers :
    (waiting afterS1 0x00000007 [] drawsTrue).inbox = [.command ⟨0x00000007, [], drawsTrue⟩] ∧
    (running afterS1 [] drawsTrue).inbox = [] := ⟨rfl, rfl⟩

/-- A next state with each status the table speaks of. -/
theorem witness_LifecycleTable :
    respAfter .init (running Engine.reset [] drawsTrue) = some ⟨.invalidState, []⟩ ∧
    respAfter (.alloc 46 0) (running Engine.reset [] drawsTrue) = some ⟨.ok, []⟩ ∧
    respAfter (.alloc 46 0) (running Engine.reset [] drawsFalse) = some ⟨.allocationFailure, []⟩ ∧
    respAfter .init (running afterA1 [] drawsTrue) = some ⟨.invalidParameter, []⟩ ∧
    respAfter (.setIv .encrypt) (running afterI1 zeros16 drawsFalse) = some ⟨.cipherFailure, []⟩ ∧
    respAfter .selfTest (running Engine.reset [] drawsFalse) = some ⟨.allocationFailure, []⟩ ∧
    (stepped (waiting afterI1 0x00000023 [] drawsTrue)).resp = some ⟨.illegalCommand, []⟩ := by decide

theorem witness_StatusCauses :
    exec (.setIv .encrypt) (running afterI1 zeros16 drawsFalse) =
      .next (nextOr State.reset (exec (.setIv .encrypt) (running afterI1 zeros16 drawsFalse))) ∧
    respAfter (.setIv .encrypt) (running afterI1 zeros16 drawsFalse) = some ⟨.cipherFailure, []⟩ ∧
    respAfter (.alloc 47 0) (running Engine.reset [] drawsTrue) = some ⟨.invalidParameter, []⟩ ∧
    respAfter .selfTest (running Engine.reset [] drawsFalse) = some ⟨.allocationFailure, []⟩ ∧
    respAfter (.process .encrypt) (running afterI1 [] drawsTrue) = some ⟨.invalidState, []⟩ :=
  ⟨rfl, by decide, by decide, by decide, by decide⟩

/-- A PROCESS answered OK, a GET_DESC, a command that returns no data, and an error. -/
theorem witness_OnlyProcessAndGetDescReturnData :
    (∃ out, (stepped (waiting afterS1 0x00000004 [1] drawsTrue)).resp = some ⟨.ok, out⟩) ∧
    (stepped (waiting afterS1 0x00000006 [] drawsTrue)).resp = some ⟨.ok, Config.descString⟩ ∧
    (stepped (waiting afterS1 0x00000005 [] drawsTrue)).resp = some ⟨.ok, []⟩ ∧
    (stepped (waiting afterS1 0x00000007 [] drawsTrue)).resp = some ⟨.invalidState, []⟩ :=
  ⟨⟨_, rfl⟩, rfl, by decide, by decide⟩

theorem witness_ErrorsWriteNoRegister :
    (stepped (waiting afterS1 0 [] drawsTrue)).resp = some ⟨.illegalCommand, []⟩ ∧
    (stepped (waiting afterS1 0x00001E01 [] drawsTrue)).resp = some ⟨.invalidState, []⟩ ∧
    (stepped (waiting Engine.reset 0x00000001 [] drawsTrue)).resp = some ⟨.invalidParameter, []⟩ ∧
    (stepped (waiting Engine.reset 0x00001E01 [] drawsFalse)).resp = some ⟨.allocationFailure, []⟩ ∧
    (stepped (waiting afterI1 0x00000003 zeros16 drawsFalse)).resp = some ⟨.cipherFailure, []⟩ ∧
    (stepped (waiting afterS1 0x00000004 [1] drawsFalse)).resp = some ⟨.cipherFailure, []⟩ ∧
    (stepped (waiting Engine.reset 0x00000007 [] drawsFalse)).resp = some ⟨.allocationFailure, []⟩ := by decide

theorem witness_ErrorPriority :
    (decode 0 = .error .reservedOpcode ∧ decode 0x00000002 = .ok .init ∧ lcAfterOk .unalloc .init = none) ∧
    (lcAfterOk .unalloc (.alloc 31 0) ≠ none ∧ classOf Config.aes192Enabled 31 = none) ∧
    (lcAfterOk .alloc .init ≠ none ∧ afterA1.kclass = some .aes128 ∧ (ks128.take 29).length < totalLen .aes128) ∧
    (lcAfterOk .init (.setIv .encrypt) ≠ none ∧ (zeros16.take 15).length < 16) ∧
    (lcAfterOk .ivset (.process .encrypt) ≠ none ∧ Config.maxDataLen < tooLong.length) :=
  ⟨by decide, by decide, by decide, by decide, by decide, tooLong_length⟩

theorem witness_RegistersChangeOnlyUnderTheirWriters :
    (engAfter .dealloc (running afterS1 [] drawsTrue)).kclass ≠ afterS1.kclass ∧
    (engAfter .dealloc (running afterS1 [] drawsTrue)).key ≠ afterS1.key ∧
    (engAfter .dealloc (running afterS1 [] drawsTrue)).offset ≠ afterS1.offset ∧
    (engAfter .dealloc (running afterS1 [] drawsTrue)).counter ≠ afterS1.counter ∧
    (engAfter .dealloc (running afterS1 [] drawsTrue)).prim ≠ afterS1.prim := by decide

/-- Two states that agree on the registers and the command and on nothing else. -/
theorem witness_StepDependsOnlyOnRegistersAndCommand :
    (waiting afterS1 0x00000005 [] drawsTrue).eng =
      ({ running afterS1 [1] drawsFalse with
          inbox := [.command ⟨0x00000005, [], drawsTrue⟩, .reset], resp := some ⟨.ok, [1]⟩ }).eng ∧
    ∃ t t', step (waiting afterS1 0x00000005 [] drawsTrue) = .next t ∧
      step { running afterS1 [1] drawsFalse with
        inbox := [.command ⟨0x00000005, [], drawsTrue⟩, .reset], resp := some ⟨.ok, [1]⟩ } = .next t' :=
  ⟨rfl, _, _, rfl, rfl⟩

/-- Two states that differ in key, offset and counter. -/
theorem witness_StatusRevealsNoKeyMaterial :
    afterI1.lc = ({ afterI1 with key := zeroKey, offset := 0, counter := 0 }).lc ∧
    afterI1.kclass = ({ afterI1 with key := zeroKey, offset := 0, counter := 0 }).kclass ∧
    afterI1.key ≠ zeroKey ∧
    respAfter (.setIv .encrypt) (running afterI1 zeros16 drawsTrue) = some ⟨.ok, []⟩ ∧
    respAfter (.setIv .encrypt)
      (running { afterI1 with key := zeroKey, offset := 0, counter := 0 } zeros16 drawsTrue) =
        some ⟨.ok, []⟩ := by decide

theorem witness_ReInitOrFailureNeedsNewSetIv :
    respAfter .init (running afterS1 ks128 drawsTrue) = some ⟨.ok, []⟩ ∧
    respAfter (.setIv .encrypt) (running afterS1 zeros16 drawsFalse) = some ⟨.cipherFailure, []⟩ ∧
    respAfter (.process .encrypt) (running afterS1 [1] drawsFalse) = some ⟨.cipherFailure, []⟩ := by decide

/-- The registers of S1 meet the invariants. -/
theorem witness_EngineInv : EngineInv afterS1 where
  unalloc_zero := by decide
  alloc_zero := by decide
  seeded_iff := by decide
  seeded_snapshot := by decide
  unseeded_zero := by decide
  offset_low := by decide
  ivset_start := by decide
  kclass_none_iff := by decide
  key_tail_zero := by
    intro c hc
    obtain rfl : KeyClass.aes128 = c := by simpa [afterS1, afterI1] using hc
    decide
  aes192_enabled := by
    intro h
    exact absurd h (by decide)

/-- So do the reset registers. -/
theorem witness_IdempotentCommandsWriteNothing :
    EngineInv Engine.reset ∧ Engine.reset.lc = .unalloc ∧
    ∃ t, exec .dealloc (running Engine.reset [] drawsTrue) = .next t := by
  refine ⟨⟨by decide, by decide, by decide, by decide, by decide, by decide, by decide, by decide, ?_, ?_⟩,
    rfl, _, rfl⟩
  · intro c hc
    cases hc
  · intro h
    cases h

theorem witness_ExecKeepsEngineInvariant :
    EngineInv (running afterS1 ks128 drawsTrue).eng ∧
    ∃ t, exec .init (running afterS1 ks128 drawsTrue) = .next t :=
  ⟨witness_EngineInv, _, rfl⟩

theorem witness_StepKeepsInvariant :
    Inv (waiting afterS1 0x00000002 ks128 drawsTrue) ∧
    ∃ t, step (waiting afterS1 0x00000002 ks128 drawsTrue) = .next t :=
  ⟨⟨witness_EngineInv, rfl, rfl⟩, _, rfl⟩

/-! ### A run from reset: ALLOC, INIT, SET_IV, PROCESS of no bytes -/

/-- The four commands of the run. -/
def runEvents : List PortEvent :=
  [.command ⟨0x00001E01, [], drawsTrue⟩, .command ⟨0x00000002, ks128, drawsTrue⟩,
   .command ⟨0x00000003, zeros16, drawsTrue⟩, .command ⟨0x00000004, [], drawsTrue⟩]

/-- The state after the host has delivered the run and `n` steps have been taken. -/
def runState : Nat → State
  | 0 => runEvents.foldl State.deliver State.reset
  | n + 1 => stepped (runState n)

/-- The state after three steps is reachable, seeded and in IVSET. -/
theorem witness_ReachableStatesMeetInvariants :
    Reachable (runState 3) ∧ (runState 3).eng = afterS1 := by
  have h0 : Reachable (runState 0) := .deliver _ (.deliver _ (.deliver _ (.deliver _ .reset)))
  exact ⟨.step (.step (.step h0 (step_eq_stepped _)) (step_eq_stepped _)) (step_eq_stepped _), by decide⟩

/-- A run whose last entry is a PROCESS answered OK. -/
theorem witness_ProcessOkNeedsCommandOrder :
    ∃ (h : History) (t : State) (x : PortEvent × Option Response),
      RunTo State.reset (h ++ [x]) t ∧ Answered isProcess .ok x := by
  have h0 : RunTo State.reset [] (runState 0) := .deliver _ (.deliver _ (.deliver _ (.deliver _ .start)))
  have h1 := RunTo.take h0 (rfl : (runState 0).inbox = _ :: _) (step_eq_stepped _)
  have h2 := RunTo.take h1 (rfl : (runState 1).inbox = _ :: _) (step_eq_stepped (runState 1))
  have h3 := RunTo.take h2 (rfl : (runState 2).inbox = _ :: _) (step_eq_stepped (runState 2))
  have h4 := RunTo.take h3 (rfl : (runState 3).inbox = _ :: _) (step_eq_stepped (runState 3))
  exact ⟨_, _, _, h4, ⟨0x00000004, [], drawsTrue⟩, .process .encrypt, ⟨.ok, []⟩, rfl, by decide, rfl,
    (by decide : (stepped (runState 3)).resp = some ⟨.ok, []⟩), rfl⟩

end Sys2Proof.Tests
end

/-! # Proofs of the statements of 00_scope.md: the class table, blocks, and the step at a command -/

namespace Sys2Proof.Machine

/-! ## Class lengths (00_scope.md R7) -/

/-- Settles O12: the table's six values, and the inference from it by `totalLen_eq`. -/
theorem classLengths : Obligations.ClassLengths :=
  ⟨rfl, rfl, rfl, rfl, rfl, rfl, totalLen_eq⟩

/-! ## Byte strings and blocks (00_scope.md R9, 20_memory.md R51) -/

@[simp] theorem bytes16_length (b : Block) : (bytes16 b).length = 16 := by simp [bytes16]

/-- Counted from its end, the string of a block holds byte `15 - q` of the block at place `q`. -/
theorem bytes16_reverse_getElem? (b : Block) {q : Nat} (hq : q < 16) :
    (bytes16 b).reverse[q]? = some (blockByte b (15 - q)) := by
  rw [List.getElem?_reverse (by simpa using hq), bytes16_length]
  exact bytes16_getElem? b (by omega)

/-- Byte `i` of the block of a 16-byte string is the string's byte `i`: bit `j` of that byte is bit `8 * (15 - i) + j`
of the block, which `be128_getLsbD` reads from the byte that lies `15 - i` from the end. -/
theorem blockByte_be128 {s : List Byte} (hs : s.length = 16) {i : Nat} {b : Byte} (hb : s[i]? = some b) :
    blockByte (be128 s) i = b := by
  have hi : i < 16 := hs ▸ (List.getElem?_eq_some_iff.mp hb).1
  refine BitVec.eq_of_getLsbD_eq fun j hj => ?_
  have hdiv : (120 - 8 * i + j) / 8 = 15 - i := by omega
  have hmod : (120 - 8 * i + j) % 8 = j := by omega
  have hrev : s.reverse[15 - i]? = some b := by
    rw [List.getElem?_reverse (by omega), hs, show 16 - 1 - (15 - i) = i by omega, hb]
  rw [blockByte_getLsbD, be128_getLsbD s hs.le, hdiv, hmod, List.getD_eq_getElem?_getD, hrev]
  simp [hj]

theorem bytes16_be128 {s : List Byte} (hs : s.length = 16) : bytes16 (be128 s) = s := by
  refine List.ext_getElem (by simp [hs]) fun i hi hi' => ?_
  have hget := bytes16_getElem? (be128 s) (by simpa using hi : i < 16)
  rw [blockByte_be128 hs (List.getElem?_eq_getElem hi')] at hget
  exact (List.getElem?_eq_some_iff.mp hget).2

theorem be128_bytes16 (b : Block) : be128 (bytes16 b) = b := by
  refine BitVec.eq_of_getLsbD_eq fun k hk => ?_
  have hbyte : k / 8 < 16 := by omega
  have hbit : 120 - 8 * (15 - k / 8) + k % 8 = k := by omega
  rw [be128_getLsbD _ (by simp), List.getD_eq_getElem?_getD, bytes16_reverse_getElem? b hbyte, Option.getD_some,
    blockByte_getLsbD, hbit]
  simp [Nat.mod_lt]

/-- Settles O14: byte positions by `blockByte_be128`, and the two inverse laws. -/
theorem blocksAreBigEndian : Obligations.BlocksAreBigEndian :=
  ⟨fun _ hs => ⟨fun _ _ hb => blockByte_be128 hs hb, bytes16_be128 hs⟩,
    fun b => ⟨bytes16_length b, be128_bytes16 b⟩⟩

/-! ## What a command reads (00_scope.md R11, R12)

Of a state, a command reads the registers, its operands and the number that names its free values; it answers whatever
else stands on the port. -/

/-- Two states agree on all that a command reads. -/
structure SameInputs (s s' : State) : Prop where
  eng : s.eng = s'.eng
  data : s.data = s'.data
  draws : s.draws = s'.draws
  serial : s.serial = s'.serial

theorem SameInputs.refl (s : State) : SameInputs s s := ⟨rfl, rfl, rfl, rfl⟩

theorem SameInputs.allocOk {s s' : State} (h : SameInputs s s') : s.allocOk = s'.allocOk :=
  State.allocOk_congr h.draws h.serial

theorem SameInputs.primOk {s s' : State} (h : SameInputs s s') : s.primOk = s'.primOk :=
  State.primOk_congr h.draws h.serial

theorem SameInputs.ks {s s' : State} (h : SameInputs s s') : s.ks = s'.ks :=
  State.ks_congr (congrArg Engine.prim h.eng) h.draws h.serial

/-- Taking one command from ports in front of equal registers leaves states that agree on what the command reads. -/
theorem SameInputs.takeCommand {s s' : State} (he : s.eng = s'.eng) (hn : s.serial = s'.serial) (c : Command)
    (rest rest' : List PortEvent) : SameInputs (s.takeCommand c rest) (s'.takeCommand c rest') :=
  ⟨he, rfl, rfl, by simp [hn]⟩

/-- The classes of a self-test read the state for its draws only. -/
theorem testClasses_congr {s s' : State} (h : SameInputs s s') (cases : List (KeyClass × KnownAnswer)) (r : TestRun) :
    testClasses s cases r = testClasses s' cases r := by
  induction cases generalizing r with
  | nil => rfl
  | cons x rest ih =>
    have hx : testClass s x.1 x.2 r = testClass s' x.1 x.2 r := by simp only [testClass, h.allocOk, h.primOk]
    simp only [testClasses, hx, ih]

/-- A command answers two states that agree on its inputs alike: with the same registers, status and data, and it
writes no other field of either. -/
theorem exec_answers_alike (i : Instr) {s s' : State} (h : SameInputs s s') :
    ∃ e st rd, exec i s = .next (s.answer e st rd) ∧ exec i s' = .next (s'.answer e st rd) := by
  cases i with
  | alloc klen tlen =>
    simp only [exec, execAlloc, State.fail_eq_answer, h.eng, h.allocOk]
    cases classOf Config.aes192Enabled klen with
    | none => dsimp only; split_ifs <;> exact ⟨_, _, _, rfl, rfl⟩
    | some c => dsimp only; split_ifs <;> exact ⟨_, _, _, rfl, rfl⟩
  | init =>
    simp only [exec, execInit, State.fail_eq_answer, h.eng, h.data]
    split_ifs <;> exact ⟨_, _, _, rfl, rfl⟩
  | setIv dir =>
    simp only [exec, execSetIv, State.fail_eq_answer, h.eng, h.data, h.primOk]
    split_ifs <;> exact ⟨_, _, _, rfl, rfl⟩
  | process dir =>
    simp only [exec, execProcess, State.fail_eq_answer, h.eng, h.data, h.primOk, h.ks]
    split_ifs <;> exact ⟨_, _, _, rfl, rfl⟩
  | dealloc => exact ⟨_, _, _, rfl, rfl⟩
  | getDesc => exact ⟨s.eng, _, _, rfl, by rw [h.eng]; rfl⟩
  | selfTest =>
    simp only [exec, execSelfTest, selfTestOn, State.fail_eq_answer, h.eng, testClasses_congr h]
    split_ifs
    · exact ⟨_, _, _, rfl, rfl⟩
    · cases testClasses s' (selfTestCases Config.aes192Enabled Config.kat192) ⟨s'.eng, 0, 0⟩ <;>
        exact ⟨_, _, _, rfl, rfl⟩

/-- Every command completes and answers: it writes the registers and the response and no other field. -/
theorem exec_eq_answer (i : Instr) (s : State) : ∃ e st rd, exec i s = .next (s.answer e st rd) := by
  obtain ⟨e, st, rd, h, -⟩ := exec_answers_alike i (SameInputs.refl s)
  exact ⟨e, st, rd, h⟩

/-- So does every command word, an ILLEGAL one with the registers it found. -/
theorem runWord_answers_alike (w : Word) {s s' : State} (h : SameInputs s s') :
    ∃ e st rd, runWord w s = .next (s.answer e st rd) ∧ runWord w s' = .next (s'.answer e st rd) := by
  unfold runWord
  cases decode w with
  | ok i => exact exec_answers_alike i h
  | error why => exact ⟨s.eng, .illegalCommand, [], rfl, by rw [h.eng]; rfl⟩

/-! ## The step at a command (00_scope.md R11, 20_memory.md R57) -/

theorem step_command {s : State} {c : Command} {rest : List PortEvent} (hin : s.inbox = .command c :: rest) :
    step s = retireOutcome (runWord c.cmd (s.takeCommand c rest)) := by
  simp only [step, hin]

theorem runWord_of_decode {w : Word} {i : Instr} (hi : decode w = .ok i) (s : State) : runWord w s = exec i s := by
  simp only [runWord, hi]

/-- Settles O8: the command answers by `exec_eq_answer`, and the step retires its answer. -/
theorem stepRunsDecodedInstruction : Obligations.StepRunsDecodedInstruction := by
  intro s c rest i hin hi
  obtain ⟨e, st, rd, hexec⟩ := exec_eq_answer i (s.takeCommand c rest)
  refine ⟨(s.takeCommand c rest).answer e st rd, hexec, ?_⟩
  rw [step_command hin, runWord_of_decode hi, hexec]
  rfl

/-- On a port with nothing delivered, `withFetchWord` puts the word into a new command with no operands (log 2). -/
theorem State.withFetchWord_inbox_of_idle {s : State} (hin : s.inbox = []) (w : Word) :
    (s.withFetchWord 32 w.toNat).inbox = .command ⟨w, [], Draws.free⟩ :: s.inbox := by
  simp [State.withFetchWord, placeWord, hin]

/-- Settles O9: the placed word is a command in front of the old port, and O8 says what the step at it does. -/
theorem placedWordRunsNext : Obligations.PlacedWordRunsNext :=
  fun _ w i hin hi => stepRunsDecodedInstruction _ _ _ i (State.withFetchWord_inbox_of_idle hin w) hi

/-- Settles O48: both steps hand the command to states that agree on what it reads, and retiring an answer keeps its
registers and response. -/
theorem stepDependsOnlyOnRegistersAndCommand : Obligations.StepDependsOnlyOnRegistersAndCommand := by
  intro s s' t t' c rest rest' he hn hin hin' ht ht'
  obtain ⟨e, st, rd, hrun, hrun'⟩ := runWord_answers_alike c.cmd (SameInputs.takeCommand he hn c rest rest')
  rw [step_command hin, hrun] at ht
  rw [step_command hin', hrun'] at ht'
  cases ht
  cases ht'
  exact ⟨rfl, rfl⟩

end Sys2Proof.Machine

/-! # Proofs of the statements of 10_state.md: register codes, reset values, writers, statuses and invariants -/

namespace Sys2Proof.Machine

/-! ## Register codes (10_state.md R23, R24)

Each code names one value because the value can be read back from it. -/

/-- Reads an `LC` back from its code; what it gives for the codes 5 to 7, which no `LC` has, is never used. -/
def Lifecycle.ofCode (b : BitVec 3) : Lifecycle :=
  match b.toNat with
  | 0 => .unalloc
  | 1 => .alloc
  | 2 => .init
  | 3 => .ivset
  | _ => .processed

/-- Reads a class register back from its code. -/
def classOfCode (b : BitVec 2) : Option KeyClass :=
  match b.toNat with
  | 0 => none
  | 1 => some .aes128
  | 2 => some .aes192
  | _ => some .aes256

theorem Lifecycle.ofCode_code : Function.LeftInverse Lifecycle.ofCode Lifecycle.code := by
  intro lc; cases lc <;> rfl

theorem classOfCode_classCode : Function.LeftInverse classOfCode classCode := by
  rintro (_ | c)
  · rfl
  · cases c <;> rfl

theorem Lifecycle.code_le_four (lc : Lifecycle) : lc.code.toNat ≤ 4 := by cases lc <;> decide

/-- Settles O57: the codes by evaluation, and no code stands for two values because each reads back. -/
theorem lifecycleAndClassCodes : Obligations.LifecycleAndClassCodes :=
  ⟨rfl, rfl, rfl, rfl, rfl, Lifecycle.code_le_four, fun _ _ => Lifecycle.ofCode_code.injective.eq_iff,
    rfl, rfl, rfl, rfl, fun _ _ => classOfCode_classCode.injective.eq_iff⟩

/-! ## The registers after SELF_TEST (10_state.md R34, 43_lifecycle_selftest.md R171) -/

/-- A SELF_TEST that the lifecycle admits leaves the reset registers, whether it fails or passes. -/
theorem execSelfTest_eng_of_unalloc {s t : State} (hl : s.eng.lc = .unalloc) (h : exec .selfTest s = .next t) :
    t.eng = Engine.reset := by
  obtain ⟨hne, -⟩ | ⟨st, -, -, rfl⟩ | ⟨r, -, hr, rfl⟩ := execSelfTest_cases h
  · exact absurd hl hne
  · rfl
  · exact testClasses_ok _ hr (by simp [selfTestCases])

/-- Settles O11: the values by definition, and DEALLOC and an admitted SELF_TEST leave the reset registers. -/
theorem resetRegisterValues : Obligations.ResetRegisterValues :=
  ⟨rfl, fun _ _ h => by rw [execDealloc_cases h]; rfl, fun _ _ hl h => execSelfTest_eng_of_unalloc hl h⟩

/-! ## What a command leaves unchanged (10_state.md R31) -/

theorem execInit_kclass {s t : State} (h : exec .init s = .next t) : t.eng.kclass = s.eng.kclass := by
  obtain ⟨-, rfl⟩ | ⟨-, -, rfl⟩ | ⟨-, -, rfl⟩ := execInit_cases h <;> rfl

/-- SET_IV leaves the context it derives from. -/
theorem execSetIv_frame {dir : Direction} {s t : State} (h : exec (.setIv dir) s = .next t) :
    t.eng.kclass = s.eng.kclass ∧ t.eng.key = s.eng.key ∧ t.eng.offset = s.eng.offset := by
  obtain ⟨-, rfl⟩ | ⟨-, -, rfl⟩ | ⟨-, -, -, rfl⟩ | ⟨-, -, -, rfl⟩ := execSetIv_cases h <;> exact ⟨rfl, rfl, rfl⟩

/-- PROCESS writes `LC` and the primitive only. -/
theorem execProcess_frame {dir : Direction} {s t : State} (h : exec (.process dir) s = .next t) :
    t.eng.kclass = s.eng.kclass ∧ t.eng.key = s.eng.key ∧ t.eng.offset = s.eng.offset ∧
      t.eng.counter = s.eng.counter := by
  obtain ⟨-, rfl⟩ | ⟨-, -, rfl⟩ | ⟨-, -, rfl⟩ | ⟨-, -, -, -, rfl⟩ | ⟨-, -, -, -, rfl⟩ := execProcess_cases h <;>
    exact ⟨rfl, rfl, rfl, rfl⟩

theorem execGetDesc_eng {s t : State} (h : exec .getDesc s = .next t) : t.eng = s.eng := by
  rw [execGetDesc_cases h]; rfl

/-- Settles O47: ALLOC, DEALLOC and SELF_TEST are listed for every register, and the frames of the other four commands
give the rest. -/
theorem registersChangeOnlyUnderTheirWriters : Obligations.RegistersChangeOnlyUnderTheirWriters := by
  intro i s t h
  cases i with
  | alloc klen tlen => simp [isAlloc]
  | dealloc => simp
  | selfTest => simp
  | init => simp [execInit_kclass h]
  | setIv dir =>
    obtain ⟨hclass, hkey, hoffset⟩ := execSetIv_frame h
    simp [hclass, hkey, hoffset, isSetIv]
  | process dir =>
    obtain ⟨hclass, hkey, hoffset, hcounter⟩ := execProcess_frame h
    simp [hclass, hkey, hoffset, hcounter]
  | getDesc => simp [execGetDesc_eng h]

/-! ## The low bits of offset and counter (10_state.md R26, 41_counter_derivation.md R135) -/

/-- The two zero bytes that `SaltBlock` appends are the block counter. -/
theorem blockCounter_saltBlock (salt : List Byte) : blockCounter (saltBlock salt) = 0 := by
  have hcat : salt ++ [0, 0] = (salt ++ [0]) ++ [0] := by simp
  rw [saltBlock, hcat, be128_concat, be128_concat, blockCounter]
  refine BitVec.eq_of_getLsbD_eq fun k hk => ?_
  simp [hk]

/-- Over an offset with zero low bits, the derived counter's block counter is the nonce's. -/
theorem blockCounter_deriveCounter {offset : Block} (h : blockCounter offset = 0) (nonce : List Byte) :
    blockCounter (deriveCounter offset nonce) = blockCounter (be128 nonce) := by
  unfold blockCounter at *
  simp [deriveCounter, BitVec.extractLsb'_xor, h]

/-- A SET_IV of a whole nonce, where `LC` admits it, writes the derived counter whatever the draw. -/
theorem execSetIv_counter {dir : Direction} {s t : State} (h : exec (.setIv dir) s = .next t)
    (hl : s.eng.lc = .init ∨ s.eng.lc = .ivset ∨ s.eng.lc = .processed) (hd : 16 ≤ s.data.length) :
    t.eng.counter = deriveCounter s.eng.offset (nonceOf s.data) := by
  obtain ⟨hno, -⟩ | ⟨-, hshort, -⟩ | ⟨-, -, -, rfl⟩ | ⟨-, -, -, rfl⟩ := execSetIv_cases h
  · rcases hno with hno | hno <;> simp [hno] at hl
  · omega
  · rfl
  · rfl

/-- Settles O24: the counter is the derived one, and the XOR with zero low bits keeps the nonce's. -/
theorem setIvTakesLowBitsFromNonce : Obligations.SetIvTakesLowBitsFromNonce := by
  intro s dir hoffset hl hd
  obtain ⟨e, st, rd, hexec⟩ := exec_eq_answer (.setIv dir) s
  refine ⟨_, hexec, ?_⟩
  rw [execSetIv_counter hexec hl hd]
  exact blockCounter_deriveCounter hoffset _

/-! ## What a status depends on (10_state.md R31)

Every branch of every command is chosen by `LC`, `KCLASS`, the operands and the draws; the one branch that compares
computed bytes, SELF_TEST's, computes them from the fixture. -/

/-- Two states agree on all that a status may depend on. -/
structure SamePublicInputs (s s' : State) : Prop where
  lc : s.eng.lc = s'.eng.lc
  kclass : s.eng.kclass = s'.eng.kclass
  data : s.data = s'.data
  draws : s.draws = s'.draws
  serial : s.serial = s'.serial

theorem SamePublicInputs.allocOk {s s' : State} (h : SamePublicInputs s s') : s.allocOk = s'.allocOk :=
  State.allocOk_congr h.draws h.serial

theorem SamePublicInputs.primOk {s s' : State} (h : SamePublicInputs s s') : s.primOk = s'.primOk :=
  State.primOk_congr h.draws h.serial

/-- One class of a self-test does not read the registers it starts from. -/
theorem testClass_alike {s s' : State} (h : SamePublicInputs s s') (c : KeyClass) (f : KnownAnswer) (e e' : Engine)
    (a p : Nat) : testClass s c f ⟨e, a, p⟩ = testClass s' c f ⟨e', a, p⟩ := by
  simp only [testClass, testOutput, seededForTest_prim, Engine.zeroize_eq_reset, h.allocOk, h.primOk]

/-- So a self-test over a list of classes ends with the same error, or passes, from any registers. -/
theorem testClasses_alike {s s' : State} (h : SamePublicInputs s s') (cases : List (KeyClass × KnownAnswer))
    (e e' : Engine) (a p : Nat) :
    (∃ st, testClasses s cases ⟨e, a, p⟩ = .error st ∧ testClasses s' cases ⟨e', a, p⟩ = .error st) ∨
    (∃ r r', testClasses s cases ⟨e, a, p⟩ = .ok r ∧ testClasses s' cases ⟨e', a, p⟩ = .ok r') := by
  induction cases generalizing e e' a p with
  | nil => exact .inr ⟨_, _, rfl, rfl⟩
  | cons x rest ih =>
    simp only [testClasses, testClass_alike h x.1 x.2 e e' a p]
    cases testClass s' x.1 x.2 ⟨e', a, p⟩ with
    | error st => exact .inl ⟨st, rfl, rfl⟩
    | ok r => exact ih r.eng r.eng r.a r.p

/-- A command answers two states that agree on the public inputs with the same status, and any but PROCESS with the same
data. -/
theorem exec_status_alike (i : Instr) {s s' : State} (h : SamePublicInputs s s') :
    ∃ e e' st rd rd', exec i s = .next (s.answer e st rd) ∧ exec i s' = .next (s'.answer e' st rd') ∧
      (isProcess i = false → rd = rd') := by
  cases i with
  | alloc klen tlen =>
    simp only [exec, execAlloc, State.fail_eq_answer, h.lc, h.allocOk]
    cases classOf Config.aes192Enabled klen with
    | none => dsimp only; split_ifs <;> exact ⟨_, _, _, _, _, rfl, rfl, fun _ => rfl⟩
    | some c => dsimp only; split_ifs <;> exact ⟨_, _, _, _, _, rfl, rfl, fun _ => rfl⟩
  | init =>
    simp only [exec, execInit, State.fail_eq_answer, h.lc, h.kclass, h.data]
    split_ifs <;> exact ⟨_, _, _, _, _, rfl, rfl, fun _ => rfl⟩
  | setIv dir =>
    simp only [exec, execSetIv, State.fail_eq_answer, h.lc, h.data, h.primOk]
    split_ifs <;> exact ⟨_, _, _, _, _, rfl, rfl, fun _ => rfl⟩
  | process dir =>
    simp only [exec, execProcess, State.fail_eq_answer, h.lc, h.data, h.primOk]
    split_ifs <;> exact ⟨_, _, _, _, _, rfl, rfl, nofun⟩
  | dealloc => exact ⟨_, _, _, _, _, rfl, rfl, fun _ => rfl⟩
  | getDesc => exact ⟨_, _, _, _, _, rfl, rfl, fun _ => rfl⟩
  | selfTest =>
    simp only [exec, execSelfTest, selfTestOn, State.fail_eq_answer, h.lc]
    split_ifs
    · exact ⟨_, _, _, _, _, rfl, rfl, fun _ => rfl⟩
    · obtain ⟨st, hr, hr'⟩ | ⟨r, r', hr, hr'⟩ :=
        testClasses_alike h (selfTestCases Config.aes192Enabled Config.kat192) s.eng s'.eng 0 0 <;>
      · rw [hr, hr']
        exact ⟨_, _, _, _, _, rfl, rfl, fun _ => rfl⟩

/-- Settles O49: the responses are those of `exec_status_alike`. -/
theorem statusRevealsNoKeyMaterial : Obligations.StatusRevealsNoKeyMaterial := by
  intro i s s' t t' r r' hlc hclass hdata hdraws hserial ht hr ht' hr'
  obtain ⟨e, e', st, rd, rd', hexec, hexec', hrd⟩ := exec_status_alike i ⟨hlc, hclass, hdata, hdraws, hserial⟩
  rw [hexec] at ht
  rw [hexec'] at ht'
  cases ht
  cases ht'
  cases hr
  cases hr'
  exact ⟨rfl, hrd⟩

/-! ## The invariants of the registers (10_state.md R29)

The invariant is built from its part on the context registers, which INIT, SET_IV and PROCESS carry along, and from what
`LC` says of the primitive: either unseeded, or a snapshot of the context. -/

/-- The invariant's part on `KCLASS`, `KEY` and `OFFSET` while a class is bound. -/
structure ContextInv (kclass : Option KeyClass) (key : KeyStore) (offset : Block) : Prop where
  bound : kclass ≠ none
  offset_low : blockCounter offset = 0
  key_tail_zero : ∀ c, kclass = some c → ∀ i : Fin 32, keyLen c ≤ i.val → key[i] = 0
  aes192_enabled : kclass = some .aes192 → Config.aes192Enabled = true

/-- Where SET_IV or PROCESS is admitted, a class is bound. -/
theorem Lifecycle.ne_unalloc_of_keyed {lc : Lifecycle} (h : lc = .init ∨ lc = .ivset ∨ lc = .processed) :
    lc ≠ .unalloc := by
  rintro rfl; simp at h

theorem EngineInv.context {e : Engine} (h : EngineInv e) (hl : e.lc ≠ .unalloc) :
    ContextInv e.kclass e.key e.offset where
  bound := mt h.kclass_none_iff.mp hl
  offset_low := h.offset_low
  key_tail_zero := h.key_tail_zero
  aes192_enabled := h.aes192_enabled

/-- A context in `LC` = INIT with an unseeded primitive meets the invariant. -/
theorem EngineInv.of_unseeded {e : Engine} (hc : ContextInv e.kclass e.key e.offset) (hl : e.lc = .init)
    (hp : e.prim = Primitive.reset) : EngineInv e where
  unalloc_zero h := by simp [hl] at h
  alloc_zero h := by simp [hl] at h
  seeded_iff := by simp [hl, hp, Primitive.reset]
  seeded_snapshot h := by simp [hp, Primitive.reset] at h
  unseeded_zero _ := by rw [hp]; exact ⟨rfl, rfl, rfl, rfl⟩
  offset_low := hc.offset_low
  ivset_start h := by simp [hl] at h
  kclass_none_iff := by simp [hl, hc.bound]
  key_tail_zero := hc.key_tail_zero
  aes192_enabled := hc.aes192_enabled

/-- A context whose primitive is seeded with it meets the invariant, with the keystream at its start in IVSET. -/
theorem EngineInv.of_seeded {e : Engine} (hc : ContextInv e.kclass e.key e.offset)
    (hl : e.lc = .ivset ∨ e.lc = .processed) (hseeded : e.prim.seeded = true)
    (hsnap : e.prim.pkclass = e.kclass ∧ e.prim.pkey = e.key ∧ e.prim.pctr0 = e.counter)
    (hstart : e.lc = .ivset → e.prim.kspos = 0) : EngineInv e where
  unalloc_zero h := by simp [h] at hl
  alloc_zero h := by simp [h] at hl
  seeded_iff := iff_of_true hseeded hl
  seeded_snapshot _ := hsnap
  unseeded_zero h := by simp [hseeded] at h
  offset_low := hc.offset_low
  ivset_start := hstart
  kclass_none_iff := iff_of_false hc.bound (by rintro h; simp [h] at hl)
  key_tail_zero := hc.key_tail_zero
  aes192_enabled := hc.aes192_enabled

theorem engineInv_reset : EngineInv Engine.reset where
  unalloc_zero _ := ⟨rfl, rfl, rfl, rfl, rfl⟩
  alloc_zero := nofun
  seeded_iff := by simp [Engine.reset, Primitive.reset]
  seeded_snapshot := nofun
  unseeded_zero _ := ⟨rfl, rfl, rfl, rfl⟩
  offset_low := rfl
  ivset_start := nofun
  kclass_none_iff := iff_of_true rfl rfl
  key_tail_zero := nofun
  aes192_enabled := nofun

/-- ALLOC's writes meet the invariant for a class this build has. -/
theorem engineInv_bindClass (e : Engine) {c : KeyClass} (hc : c = .aes192 → Config.aes192Enabled = true) :
    EngineInv (e.bindClass c) := by
  rw [Engine.bindClass_eq]
  exact {
    unalloc_zero := nofun
    alloc_zero := fun _ => ⟨rfl, rfl, rfl, rfl⟩
    seeded_iff := by simp [Primitive.reset]
    seeded_snapshot := nofun
    unseeded_zero := fun _ => ⟨rfl, rfl, rfl, rfl⟩
    offset_low := rfl
    ivset_start := nofun
    kclass_none_iff := by simp
    key_tail_zero := fun _ _ i _ => zeroKey_getElem i
    aes192_enabled := fun h => hc (Option.some.inj h) }

/-- INIT's writes keep the invariant: it loads the key bytes of the class, and the tail stays zero. -/
theorem EngineInv.loadContext {e : Engine} (h : EngineInv e) (hl : e.lc ≠ .unalloc) (data : List Byte) :
    EngineInv (e.loadContext data) := by
  have hc := h.context hl
  refine EngineInv.of_unseeded ⟨hc.bound, blockCounter_saltBlock _, fun c hk i hi => ?_, hc.aes192_enabled⟩ rfl rfl
  have hk' : e.kclass = some c := hk
  rw [Engine.loadContext_key, loadKey_getElem, hk', keyLenOf_some, if_neg (by omega)]
  exact hc.key_tail_zero c hk' i hi

/-- What a successful PROCESS of `n` bytes leaves keeps the invariant: the snapshot is not moved. -/
theorem EngineInv.processed {e : Engine} (h : EngineInv e) (hl : e.lc = .ivset ∨ e.lc = .processed) (n : Nat) :
    EngineInv { e.advance n with lc := .processed } :=
  have hseeded := h.seeded_iff.mpr hl
  EngineInv.of_seeded (h.context (Lifecycle.ne_unalloc_of_keyed (.inr hl))) (.inr rfl) hseeded
    (h.seeded_snapshot hseeded) nofun

/-! ### Each command keeps them -/

theorem execAlloc_keeps_engineInv {klen tlen : Nat} {s t : State} (h : EngineInv s.eng)
    (ht : exec (.alloc klen tlen) s = .next t) : EngineInv t.eng := by
  obtain ⟨-, rfl⟩ | ⟨-, -, rfl⟩ | ⟨_, -, -, -, rfl⟩ | ⟨c, -, hclass, -, rfl⟩ := execAlloc_cases ht
  · exact h
  · exact h
  · exact h
  · exact engineInv_bindClass _ (classOf_eq_some hclass).2

theorem execInit_keeps_engineInv {s t : State} (h : EngineInv s.eng) (ht : exec .init s = .next t) :
    EngineInv t.eng := by
  obtain ⟨-, rfl⟩ | ⟨-, -, rfl⟩ | ⟨hl, -, rfl⟩ := execInit_cases ht
  · exact h
  · exact h
  · exact h.loadContext hl s.data

theorem execSetIv_keeps_engineInv {dir : Direction} {s t : State} (h : EngineInv s.eng)
    (ht : exec (.setIv dir) s = .next t) : EngineInv t.eng := by
  obtain ⟨-, rfl⟩ | ⟨-, -, rfl⟩ | ⟨hl, -, -, rfl⟩ | ⟨hl, -, -, rfl⟩ := execSetIv_cases ht
  · exact h
  · exact h
  · exact EngineInv.of_seeded (h.context (Lifecycle.ne_unalloc_of_keyed hl)) (.inl rfl) rfl ⟨rfl, rfl, rfl⟩
      fun _ => rfl
  · exact EngineInv.of_unseeded (h.context (Lifecycle.ne_unalloc_of_keyed hl)) rfl rfl

theorem execProcess_keeps_engineInv {dir : Direction} {s t : State} (h : EngineInv s.eng)
    (ht : exec (.process dir) s = .next t) : EngineInv t.eng := by
  obtain ⟨-, rfl⟩ | ⟨-, -, rfl⟩ | ⟨hl, -, rfl⟩ | ⟨hl, -, -, -, rfl⟩ | ⟨hl, -, -, -, rfl⟩ := execProcess_cases ht
  · exact h
  · exact h
  · exact h.processed hl 0
  · exact h.processed hl s.data.length
  · exact EngineInv.of_unseeded (h.context (Lifecycle.ne_unalloc_of_keyed (.inr hl))) rfl rfl

theorem execSelfTest_keeps_engineInv {s t : State} (h : EngineInv s.eng) (ht : exec .selfTest s = .next t) :
    EngineInv t.eng := by
  by_cases hl : s.eng.lc = .unalloc
  · rw [execSelfTest_eng_of_unalloc hl ht]
    exact engineInv_reset
  · obtain ⟨-, rfl⟩ | ⟨_, hu, -⟩ | ⟨_, hu, -⟩ := execSelfTest_cases ht
    · exact h
    · exact absurd hu hl
    · exact absurd hu hl

/-- Settles O53, command by command. -/
theorem execKeepsEngineInvariant : Obligations.ExecKeepsEngineInvariant := by
  intro i s t h ht
  cases i with
  | alloc klen tlen => exact execAlloc_keeps_engineInv h ht
  | init => exact execInit_keeps_engineInv h ht
  | setIv dir => exact execSetIv_keeps_engineInv h ht
  | process dir => exact execProcess_keeps_engineInv h ht
  | dealloc => rw [execDealloc_cases ht]; exact engineInv_reset
  | getDesc => rw [execGetDesc_eng ht]; exact h
  | selfTest => exact execSelfTest_keeps_engineInv h ht

/-! ## The invariant of the machine (10_state.md R20, R29) -/

/-- Settles O52: the registers' part is `engineInv_reset`, and the port is empty (log 9). -/
theorem resetMeetsInvariant : Obligations.ResetMeetsInvariant := ⟨engineInv_reset, rfl, rfl⟩

/-- Retiring a command clears its operands, so only the registers' part is left to show. -/
theorem inv_retire {s : State} (h : EngineInv s.eng) : Inv s.retire := ⟨h, rfl, rfl⟩

/-- Settles O54: by O53 at a decoded instruction; the other three steps leave the registers or reset them. -/
theorem stepKeepsInvariant : Obligations.StepKeepsInvariant := by
  intro s t h ht
  obtain ⟨-, rfl⟩ | ⟨rest, -, rfl⟩ | ⟨c, rest, why, -, -, rfl⟩ | ⟨c, rest, i, u, -, -, hu, rfl⟩ := step_cases ht
  · exact h
  · exact ⟨engineInv_reset, rfl, rfl⟩
  · exact inv_retire h.engine
  · exact inv_retire (execKeepsEngineInvariant i (s.takeCommand c rest) u h.engine hu)

end Sys2Proof.Machine

/-! # Proofs of the statements of 30_encoding.md: command words, lines, illegal words, status codes and data -/

namespace Sys2Proof

open Laws.SelectsRow (rowOf)

/-! ## The rows (30_encoding.md R73)

Every mask covers the opcode, and the seven matches have different opcodes; so a word selects at most one row, and the
first one that `decode` finds is the only one. -/

theorem rows_mask_covers_opcode : ∀ r ∈ rows, r.mask &&& 0xF = 0xF := by decide

theorem rows_opcode_nodup : (rows.map fun r => r.pattern &&& 0xF).Nodup := by decide

theorem Row.selects_iff (r : Row) (w : Word) : r.selects w = true ↔ w &&& r.mask = r.pattern := decide_eq_true_iff

theorem selectedRow_unique {w : Word} {r r' : Row} (hr : r ∈ rows) (hr' : r' ∈ rows) (h : r.selects w = true)
    (h' : r'.selects w = true) : r = r' :=
  List.inj_on_of_nodup_map rows_opcode_nodup hr hr' <|
    rows_exclusive ((r.selects_iff w).mp h) ((r'.selects_iff w).mp h') (rows_mask_covers_opcode r hr)
      (rows_mask_covers_opcode r' hr')

/-- A word decodes to what a row that it selects builds from it. -/
theorem decode_eq_ok_iff_row {w : Word} {i : Instr} :
    decode w = .ok i ↔ ∃ r ∈ rows, r.selects w = true ∧ r.build w = i := by
  unfold decode
  cases hfind : rows.find? (·.selects w) with
  | none =>
    rw [List.find?_eq_none] at hfind
    exact ⟨nofun, fun ⟨r, hr, hsel, _⟩ => absurd hsel (hfind r hr)⟩
  | some r =>
    have hr := List.mem_of_find?_eq_some hfind
    have hsel := List.find?_some hfind
    refine ⟨fun h => ⟨r, hr, hsel, Except.ok.inj h⟩, fun ⟨r', hr', hsel', hbuild⟩ => ?_⟩
    rw [← hbuild, selectedRow_unique hr hr' hsel hsel']

/-- A word is ILLEGAL exactly when it selects no row. -/
theorem decode_eq_error_iff {w : Word} :
    (∃ why, decode w = .error why) ↔ ∀ r ∈ rows, w &&& r.mask ≠ r.pattern := by
  simp only [ne_eq, ← Row.selects_iff, ← List.find?_eq_none]
  unfold decode
  cases rows.find? (·.selects w) <;> simp

/-! ## The variable fields (30_encoding.md R71, R75) -/

/-- The operands of an instruction are the fields of a word. -/
def HasFields (w : Word) : Instr → Prop
  | .alloc klen tlen => klen = klenOf w ∧ tlen = tlenOf w
  | .setIv dir => dir = dirOf w
  | .process dir => dir = dirOf w
  | .init | .dealloc | .getDesc | .selfTest => True

/-- A word decodes to an instruction exactly when it matches that instruction's row and carries its operands. -/
theorem decode_eq_ok_iff {w : Word} {i : Instr} :
    decode w = .ok i ↔ w &&& (rowOf i).2 = (rowOf i).1 ∧ HasFields w i := by
  rw [decode_eq_ok_iff_row]
  cases i <;> simp [rows, Row.selects, HasFields, rowOf, eq_comm]

theorem klenOf_lt (w : Word) : klenOf w < 256 := (w.extractLsb' 8 8).isLt

theorem tlenOf_lt (w : Word) : tlenOf w < 256 := (w.extractLsb' 16 8).isLt

theorem eq_dirOf_iff {w : Word} {dir : Direction} : dir = dirOf w ↔ (dir = .decrypt ↔ w.getLsbD 4 = true) := by
  rw [dirOf_eq]
  cases dir <;> cases w.getLsbD 4 <;> decide

/-- Settles O4: the row and the fields of `decode_eq_ok_iff`, each field as the statement writes it. -/
theorem decodeByMatchAndMask : Obligations.DecodeByMatchAndMask := by
  intro w
  simp only [decode_eq_ok_iff, rowOf, HasFields, klenOf_eq, tlenOf_eq, eq_dirOf_iff, and_true, implies_true, and_self]

/-! ## Decoding an encoded instruction (30_encoding.md R71, R73) -/

/-- The word of an instruction selects its row. -/
theorem encode_selects (i : Instr) : encode i &&& (rowOf i).2 = (rowOf i).1 := by
  cases i with
  | alloc klen tlen => exact Laws.SelectsRow.alloc klen tlen
  | init => exact Laws.SelectsRow.init
  | setIv dir => exact Laws.SelectsRow.setIv dir
  | process dir => exact Laws.SelectsRow.process dir
  | dealloc => exact Laws.SelectsRow.dealloc
  | getDesc => exact Laws.SelectsRow.getDesc
  | selfTest => exact Laws.SelectsRow.selfTest

/-- The word of ALLOC as a number: its fields do not overlap, so joining them is adding them. -/
theorem encode_alloc_toNat (klen tlen : Nat) :
    (encode (.alloc klen tlen)).toNat = tlen % 256 * 2 ^ 16 + klen % 256 * 2 ^ 8 + 1 := by
  have hklen : klen % 256 < 2 ^ 8 := Nat.mod_lt _ (by decide)
  have hop : 1 < 2 ^ 4 := by decide
  simp only [encode, BitVec.toNat_append, BitVec.toNat_ofNat, Nat.reducePow, Nat.reduceMod, Nat.zero_shiftLeft,
    Nat.or_zero, Nat.zero_or]
  rw [← Nat.shiftLeft_add_eq_or_of_lt hklen, ← Nat.shiftLeft_add_eq_or_of_lt hop]
  simp only [Nat.shiftLeft_eq]
  omega

/-- The word of a well-formed instruction carries its operands. -/
theorem encode_hasFields {i : Instr} (hi : WellFormed i) : HasFields (encode i) i := by
  cases i with
  | alloc klen tlen =>
    simp only [WellFormed, Instr.wf, Bool.and_eq_true, decide_eq_true_eq] at hi
    obtain ⟨hklen, htlen⟩ := hi
    simp only [HasFields, klenOf_eq, tlenOf_eq, encode_alloc_toNat]
    omega
  | setIv dir => cases dir <;> rfl
  | process dir => cases dir <;> rfl
  | init | dealloc | getDesc | selfTest => trivial

/-- Settles O2: the word selects the instruction's row and carries its operands. -/
theorem decodeEncodeIsIdentity : Obligations.DecodeEncodeIsIdentity :=
  fun i hi => decode_eq_ok_iff.mpr ⟨encode_selects i, encode_hasFields hi⟩

/-- Settles O6: the seven words by evaluation, and an expansion is well formed, so O2 reads it back. -/
theorem pseudoCommandWords : Obligations.PseudoCommandWords :=
  ⟨rfl, rfl, rfl, rfl, rfl, rfl, rfl, fun p => decodeEncodeIsIdentity p.expand (by cases p <;> rfl)⟩

/-! ## One word for each instruction (30_encoding.md R71, R73)

A word is fixed by its row, which gives the bits under the mask, and its fields, which give the bits the mask clears. -/

theorem getLsbD_eq_klenOf_testBit (w : Word) {k : Nat} (hlo : 8 ≤ k) (hhi : k < 16) :
    w.getLsbD k = (klenOf w).testBit (k - 8) := by
  have hlt : k - 8 < 8 := by omega
  have hadd : 8 + (k - 8) = k := by omega
  simp only [klenOf, BitVec.testBit_toNat, BitVec.getLsbD_extractLsb', hlt, hadd, decide_true, Bool.true_and]

theorem getLsbD_eq_tlenOf_testBit (w : Word) {k : Nat} (hlo : 16 ≤ k) (hhi : k < 24) :
    w.getLsbD k = (tlenOf w).testBit (k - 16) := by
  have hlt : k - 16 < 8 := by omega
  have hadd : 16 + (k - 16) = k := by omega
  simp only [tlenOf, BitVec.testBit_toNat, BitVec.getLsbD_extractLsb', hlt, hadd, decide_true, Bool.true_and]

theorem getLsbD_four_of_eq_dirOf {w : Word} {dir : Direction} (h : dir = dirOf w) :
    w.getLsbD 4 = decide (dir = .decrypt) := by
  simp only [eq_dirOf_iff.mp h, Bool.decide_eq_true]

theorem allocMask_clears : ∀ k < 32, (0xFF0000FF : Word).getLsbD k = false → 8 ≤ k ∧ k < 24 := by decide

theorem dirMask_clears : ∀ k < 32, (0xFFFFFFEF : Word).getLsbD k = false → k = 4 := by decide

theorem fullMask_clears : ∀ k < 32, (0xFFFFFFFF : Word).getLsbD k = false → False := by decide

/-- The bits that the mask of an instruction's row clears are fields, and the instruction's operands give them. -/
theorem HasFields.getLsbD_eq {w w' : Word} {i : Instr} (h : HasFields w i) (h' : HasFields w' i) {k : Nat}
    (hk : k < 32) (hclear : (rowOf i).2.getLsbD k = false) : w.getLsbD k = w'.getLsbD k := by
  cases i with
  | alloc klen tlen =>
    obtain ⟨hlo, hhi⟩ := allocMask_clears k hk hclear
    obtain ⟨hklen, htlen⟩ := h
    obtain ⟨hklen', htlen'⟩ := h'
    by_cases hbyte : k < 16
    · rw [getLsbD_eq_klenOf_testBit w hlo hbyte, getLsbD_eq_klenOf_testBit w' hlo hbyte, ← hklen, ← hklen']
    · have hlo16 : 16 ≤ k := by omega
      rw [getLsbD_eq_tlenOf_testBit w hlo16 hhi, getLsbD_eq_tlenOf_testBit w' hlo16 hhi, ← htlen, ← htlen']
  | setIv dir | process dir =>
    obtain rfl := dirMask_clears k hk hclear
    rw [getLsbD_four_of_eq_dirOf h, getLsbD_four_of_eq_dirOf h']
  | init | dealloc | getDesc | selfTest => exact (fullMask_clears k hk hclear).elim

theorem decode_inj {w w' : Word} {i : Instr} (h : decode w = .ok i) (h' : decode w' = .ok i) : w = w' := by
  obtain ⟨hrow, hfields⟩ := decode_eq_ok_iff.mp h
  obtain ⟨hrow', hfields'⟩ := decode_eq_ok_iff.mp h'
  refine BitVec.eq_of_getLsbD_eq fun k hk => ?_
  cases hm : (rowOf i).2.getLsbD k with
  | false => exact hfields.getLsbD_eq hfields' hk hm
  | true =>
    have hbit := congrArg (·.getLsbD k) (hrow.trans hrow'.symm)
    simpa only [BitVec.getLsbD_and, hm, Bool.and_true] using hbit

theorem wellFormed_of_decode {w : Word} {i : Instr} (h : decode w = .ok i) : WellFormed i := by
  obtain ⟨-, hfields⟩ := decode_eq_ok_iff.mp h
  cases i with
  | alloc klen tlen =>
    obtain ⟨rfl, rfl⟩ := hfields
    simp [WellFormed, Instr.wf, klenOf_lt, tlenOf_lt]
  | init | setIv | process | dealloc | getDesc | selfTest => rfl

/-- Settles O3: by O2 the instruction's own word decodes to it too, and no two words do. -/
theorem encodeDecodeIsIdentity : Obligations.EncodeDecodeIsIdentity := fun _ i h =>
  have hwf := wellFormed_of_decode h
  ⟨hwf, decode_inj (decodeEncodeIsIdentity i hwf) h⟩

/-! ## Words and lines written out (30_encoding.md R74, R79) -/

/-- Settles O1, by evaluating the decoder on each word. -/
theorem decodeReadsSpecWords : Obligations.DecodeReadsSpecWords := by
  unfold Obligations.DecodeReadsSpecWords
  decide

/-- Settles O7, by evaluating the assembler on each line. -/
theorem assemblerReadsLines : Obligations.AssemblerReadsLines :=
  ⟨rfl, rfl, rfl, rfl, rfl, rfl, rfl, rfl, rfl, rfl, rfl, rfl, rfl⟩

/-! ## Illegal words (30_encoding.md R74) -/

theorem rows_mask_covers_reserved : ∀ r ∈ rows, r.mask &&& 0xFF0000E0 = 0xFF0000E0 := by decide

theorem rows_pattern_reserved_zero : ∀ r ∈ rows, r.pattern &&& 0xFF0000E0 = 0 := by decide

theorem rows_pattern_opcode :
    ∀ r ∈ rows, r.pattern &&& 0xF ≠ 0 ∧ (r.pattern &&& 0xF).toNat < 8 := by decide

/-- Bits that a row's mask covers are, in a word that selects the row, those of the row's match. -/
theorem and_eq_pattern_and {w n : Word} {r : Row} (hsel : w &&& r.mask = r.pattern) (hn : r.mask &&& n = n) :
    w &&& n = r.pattern &&& n := by
  rw [← hsel, BitVec.and_assoc, hn]

/-- A word with a reserved opcode or a reserved bit set selects no row: the row's mask covers both, and its match has
neither. -/
theorem decode_error_of_reserved {w : Word}
    (h : w &&& 0xF = 0 ∨ 8 ≤ (w &&& 0xF).toNat ∨ w &&& 0xFF0000E0 ≠ 0) : ∃ why, decode w = .error why := by
  refine decode_eq_error_iff.mpr fun r hr hsel => ?_
  obtain ⟨hne, hlt⟩ := rows_pattern_opcode r hr
  rw [and_eq_pattern_and hsel (rows_mask_covers_opcode r hr),
    and_eq_pattern_and hsel (rows_mask_covers_reserved r hr)] at h
  obtain hzero | hbig | hreserved := h
  · exact hne hzero
  · omega
  · exact hreserved (rows_pattern_reserved_zero r hr)

end Sys2Proof

namespace Sys2Proof.Machine

/-- The step at an ILLEGAL word: it takes the command, answers it and retires it. -/
theorem step_of_decode_error {s : State} {c : Command} {rest : List PortEvent} {why : Illegal}
    (hin : s.inbox = .command c :: rest) (hdec : decode c.cmd = .error why) :
    step s = .next ((s.takeCommand c rest).fail .illegalCommand).retire := by
  rw [step_command hin]
  simp only [runWord, hdec]
  rfl

/-- Settles O5: the illegal words are those of `decode_eq_error_iff`, `decode_error_of_reserved` shows which they
include, and `step_of_decode_error` says how they are answered. -/
theorem illegalWordAnswersIllegalCommand : Obligations.IllegalWordAnswersIllegalCommand :=
  ⟨fun _ => by
      simp only [decode_eq_error_iff, rows, List.forall_mem_cons, List.not_mem_nil, false_implies, implies_true,
        and_true, and_wordOnes],
    fun _ => decode_error_of_reserved,
    decode_error_of_reserved (.inl rfl),
    fun _ _ _ _ hin hdec => step_of_decode_error hin hdec⟩

/-! ## Statuses and the data of a response (30_encoding.md R76, R77) -/

theorem Status.code_le_six (st : Status) : st.code.toNat ≤ 6 := by cases st <;> decide

/-- Settles O43: the seven codes by definition, and the bound status by status. -/
theorem statusCodes : Obligations.StatusCodes :=
  ⟨rfl, rfl, rfl, rfl, rfl, rfl, rfl, Status.code_le_six⟩

/-- A PROCESS returns its buffer's length when it is OK, and nothing otherwise. -/
theorem execProcess_rdata {dir : Direction} {s t : State} {r : Response} (h : exec (.process dir) s = .next t)
    (hr : t.resp = some r) :
    (r.status ≠ .ok ∧ r.rdata = []) ∨ (r.status = .ok ∧ r.rdata.length = s.data.length) := by
  obtain ⟨-, rfl⟩ | ⟨-, -, rfl⟩ | ⟨-, hnil, rfl⟩ | ⟨-, -, -, -, rfl⟩ | ⟨-, -, -, -, rfl⟩ := execProcess_cases h <;>
    cases hr
  · exact .inl ⟨nofun, rfl⟩
  · exact .inl ⟨nofun, rfl⟩
  · exact .inr ⟨rfl, by rw [hnil]⟩
  · exact .inr ⟨rfl, xorStream_length _ _⟩
  · exact .inl ⟨nofun, rfl⟩

/-- A command that is neither PROCESS nor GET_DESC returns no data, whatever its status. -/
theorem exec_rdata_eq_nil {i : Instr} {s t : State} {r : Response} (hprocess : isProcess i = false)
    (hdesc : i ≠ .getDesc) (h : exec i s = .next t) (hr : t.resp = some r) : r.rdata = [] := by
  cases i with
  | alloc klen tlen =>
    obtain ⟨-, rfl⟩ | ⟨-, -, rfl⟩ | ⟨_, -, -, -, rfl⟩ | ⟨_, -, -, -, rfl⟩ := execAlloc_cases h <;> cases hr <;> rfl
  | init => obtain ⟨-, rfl⟩ | ⟨-, -, rfl⟩ | ⟨-, -, rfl⟩ := execInit_cases h <;> cases hr <;> rfl
  | setIv dir =>
    obtain ⟨-, rfl⟩ | ⟨-, -, rfl⟩ | ⟨-, -, -, rfl⟩ | ⟨-, -, -, rfl⟩ := execSetIv_cases h <;> cases hr <;> rfl
  | process dir => cases hprocess
  | dealloc => rw [execDealloc_cases h] at hr; cases hr; rfl
  | getDesc => exact absurd rfl hdesc
  | selfTest =>
    obtain ⟨-, rfl⟩ | ⟨_, -, -, rfl⟩ | ⟨_, -, -, rfl⟩ := execSelfTest_cases h <;> cases hr <;> rfl

/-- The data of a command's response (30_encoding.md R77), for the command `i` on DATA `data`. -/
structure ReturnsData (i : Instr) (data : List Byte) (r : Response) : Prop where
  of_error : r.status ≠ .ok → r.rdata = []
  of_process : isProcess i = true → r.status = .ok → r.rdata.length = data.length
  of_getDesc : i = .getDesc → r.rdata = Config.descString
  of_other : isProcess i = false → i ≠ .getDesc → r.rdata = []

theorem exec_returnsData {i : Instr} {s t : State} {r : Response} (h : exec i s = .next t)
    (hr : t.resp = some r) : ReturnsData i s.data r := by
  cases i with
  | process dir =>
    obtain ⟨hst, hnil⟩ | ⟨hst, hlen⟩ := execProcess_rdata h hr
    · exact ⟨fun _ => hnil, fun _ hok => absurd hok hst, nofun, nofun⟩
    · exact ⟨absurd hst, fun _ _ => hlen, nofun, nofun⟩
  | getDesc =>
    rw [execGetDesc_cases h] at hr
    cases hr
    exact ⟨absurd rfl, nofun, fun _ => rfl, fun _ hne => absurd rfl hne⟩
  | alloc | init | setIv | dealloc | selfTest =>
    have hnil := exec_rdata_eq_nil rfl (by nofun) h hr
    exact ⟨fun _ => hnil, nofun, nofun, fun _ _ => hnil⟩

/-- Settles O44: at a decoded instruction by `exec_returnsData`; an ILLEGAL word is answered with no data. -/
theorem onlyProcessAndGetDescReturnData : Obligations.OnlyProcessAndGetDescReturnData := by
  intro s t c rest r hin ht hr
  cases hdec : decode c.cmd with
  | error why =>
    rw [step_of_decode_error hin hdec] at ht
    cases ht
    cases hr
    exact ⟨fun _ => rfl, nofun, nofun, nofun⟩
  | ok i =>
    obtain ⟨u, hexec, hstep⟩ := stepRunsDecodedInstruction s c rest i hin hdec
    rw [hstep] at ht
    cases ht
    obtain ⟨herror, hprocess, hdesc, hother⟩ := exec_returnsData hexec hr
    refine ⟨herror, ?_, fun h => hdesc (Except.ok.inj h), ?_⟩
    · rintro _ ⟨⟩
      exact hprocess
    · rintro _ ⟨⟩
      exact hother

end Sys2Proof.Machine

/-! # Proofs of the statements of 40_context_store.md: the class of a length, ALLOC, INIT and DEALLOC, and what they
mean for a later PROCESS and for every reachable state -/

namespace Sys2Proof.Machine

/-! ## The class of a length (40_context_store.md R101) -/

/-- A length names a class exactly when it is that class's total and this build has the class. -/
theorem classOf_eq_some_iff {b : Bool} {len : Nat} {c : KeyClass} :
    classOf b len = some c ↔ len = totalLen c ∧ (c = .aes192 → b = true) := by
  refine ⟨classOf_eq_some, ?_⟩
  rintro ⟨rfl, hb⟩
  cases c with
  | aes128 => rfl
  | aes192 => rw [hb rfl]; rfl
  | aes256 => rfl

theorem classOf_eq_none_iff {b : Bool} {len : Nat} :
    classOf b len = none ↔ len ≠ 30 ∧ (len = 38 → b = false) ∧ len ≠ 46 := by
  simp only [Option.eq_none_iff_forall_ne_some, ne_eq, classOf_eq_some_iff]
  constructor
  · intro h
    exact ⟨fun h30 => h .aes128 ⟨h30, nofun⟩,
      fun h38 => Bool.eq_false_iff.mpr fun hb => h .aes192 ⟨h38, fun _ => hb⟩,
      fun h46 => h .aes256 ⟨h46, nofun⟩⟩
  · rintro ⟨h30, h38, h46⟩ c ⟨hlen, hb⟩
    cases c with
    | aes128 => exact h30 hlen
    | aes192 => exact Bool.false_ne_true ((h38 hlen).symm.trans (hb rfl))
    | aes256 => exact h46 hlen

/-- Settles O13: `classOf_eq_some_iff` at each class, where only AES192 asks for the build, and `classOf_eq_none_iff`. -/
theorem classOfLength : Obligations.ClassOfLength := by
  intro enabled len
  refine ⟨?_, ?_, ?_, classOf_eq_none_iff⟩ <;> simp [classOf_eq_some_iff, totalLen]

/-! ## ALLOC (40_context_store.md R100) -/

section Alloc
variable {s : State} {klen : Nat} {c : KeyClass} (tlen : Nat)

theorem exec_alloc_of_allocated (hl : s.eng.lc ≠ .unalloc) :
    exec (.alloc klen tlen) s = .next (s.fail .invalidState) := by
  simp [exec, execAlloc, hl]

theorem exec_alloc_of_no_class (hl : s.eng.lc = .unalloc) (hc : classOf Config.aes192Enabled klen = none) :
    exec (.alloc klen tlen) s = .next (s.fail .invalidParameter) := by
  simp [exec, execAlloc, hl, hc]

theorem exec_alloc_of_draw_false (hl : s.eng.lc = .unalloc) (hc : classOf Config.aes192Enabled klen = some c)
    (hd : s.allocOk 0 = false) : exec (.alloc klen tlen) s = .next (s.fail .allocationFailure) := by
  simp [exec, execAlloc, hl, hc, hd]

theorem exec_alloc_of_draw_true (hl : s.eng.lc = .unalloc) (hc : classOf Config.aes192Enabled klen = some c)
    (hd : s.allocOk 0 = true) : exec (.alloc klen tlen) s = .next (s.answer (s.eng.bindClass c) .ok []) := by
  simp [exec, execAlloc, hl, hc, hd]

end Alloc

/-- Every word that matches ALLOC's row is an ALLOC: its fields are the operands. -/
theorem decode_alloc_iff {w : Word} :
    w &&& 0xFF0000FF = 0x00000001 ↔ ∃ klen tlen, decode w = .ok (.alloc klen tlen) :=
  ⟨fun h => ⟨klenOf w, tlenOf w, decode_eq_ok_iff.mpr ⟨h, rfl, rfl⟩⟩,
    fun ⟨_, _, h⟩ => (decode_eq_ok_iff.mp h).1⟩

/-- Settles O17: the row by `decode_alloc_iff`, and each answer by the equation of its case. -/
theorem allocBindsClass : Obligations.AllocBindsClass := by
  refine ⟨fun _ => decode_alloc_iff, fun s klen tlen => ⟨exec_alloc_of_allocated tlen, ?_, ?_⟩⟩
  · intro hl h30 h38 h46
    exact exec_alloc_of_no_class tlen hl (classOf_eq_none_iff.mpr ⟨h30, h38, h46⟩)
  · intro c hl hclass
    have hc : classOf Config.aes192Enabled klen = some c := by
      rw [classOf_eq_some_iff]
      obtain ⟨rfl, rfl⟩ | ⟨rfl, hb, rfl⟩ | ⟨rfl, rfl⟩ := hclass
      · exact ⟨rfl, nofun⟩
      · exact ⟨rfl, fun _ => hb⟩
      · exact ⟨rfl, nofun⟩
    exact ⟨exec_alloc_of_draw_false tlen hl hc, exec_alloc_of_draw_true tlen hl hc⟩

/-! ## The salt block (40_context_store.md R104) -/

/-- A byte string read big-endian as a number. -/
def bigEndian (s : List Byte) : Nat := s.foldl (fun n b => n * 256 + b.toNat) 0

theorem bigEndian_concat (s : List Byte) (b : Byte) : bigEndian (s ++ [b]) = bigEndian s * 256 + b.toNat := by
  simp [bigEndian, List.foldl_append]

theorem bigEndian_lt (s : List Byte) : bigEndian s < 256 ^ s.length := by
  induction s using List.reverseRecOn with
  | nil => simp [bigEndian]
  | append_singleton s b ih =>
    have hb := b.isLt
    rw [bigEndian_concat, List.length_append, List.length_singleton, pow_succ]
    omega

/-- A block holds the number its string of at most 16 bytes writes: no byte is shifted out. -/
theorem be128_toNat {s : List Byte} (hs : s.length ≤ 16) : (be128 s).toNat = bigEndian s := by
  induction s using List.reverseRecOn with
  | nil => rfl
  | append_singleton s b ih =>
    have hlen : s.length ≤ 15 := by rw [List.length_append, List.length_singleton] at hs; omega
    have hlt : bigEndian s < 256 ^ 15 := (bigEndian_lt s).trans_le (Nat.pow_le_pow_right (by decide) hlen)
    have hfits : bigEndian s <<< 8 < 2 ^ 128 := by rw [Nat.shiftLeft_eq]; omega
    have hbyte : b.toNat < 2 ^ 128 := b.isLt.trans (by decide)
    rw [be128_concat, BitVec.toNat_or, BitVec.toNat_shiftLeft, BitVec.toNat_setWidth, ih (by omega),
      Nat.mod_eq_of_lt hfits, Nat.mod_eq_of_lt hbyte, ← Nat.shiftLeft_add_eq_or_of_lt b.isLt, Nat.shiftLeft_eq,
      bigEndian_concat]

/-- The two zero bytes move the salt up by 16 bits. -/
theorem saltBlock_toNat {salt : List Byte} (h : salt.length ≤ 14) :
    (saltBlock salt).toNat = bigEndian salt * 2 ^ 16 := by
  have hzero : (0 : Byte).toNat = 0 := rfl
  have hlen : (salt ++ [0, 0]).length ≤ 16 := by simpa using h
  have hcat : salt ++ [0, 0] = (salt ++ [0]) ++ [0] := by simp
  rw [saltBlock, be128_toNat hlen, hcat, bigEndian_concat, bigEndian_concat, hzero]
  omega

theorem bytes16_saltBlock {salt : List Byte} (h : salt.length = 14) : bytes16 (saltBlock salt) = salt ++ [0, 0] :=
  bytes16_be128 (by simp [h])

/-- Settles O15: the bytes by `bytes16_be128`, the number by `saltBlock_toNat`, the low bits by `blockCounter_saltBlock`. -/
theorem saltBlockMasksLowBits : Obligations.SaltBlockMasksLowBits := fun salt h =>
  ⟨bytes16_saltBlock h, rfl, saltBlock_toNat h.le, blockCounter_saltBlock salt⟩

/-! ## INIT (40_context_store.md R103) -/

theorem decode_init_iff {w : Word} : w &&& 0xFFFFFFFF = 0x00000002 ↔ decode w = .ok .init :=
  ⟨fun h => decode_eq_ok_iff.mpr ⟨h, trivial⟩, fun h => (decode_eq_ok_iff.mp h).1⟩

theorem exec_init_of_unalloc {s : State} (hl : s.eng.lc = .unalloc) :
    exec .init s = .next (s.fail .invalidState) := by
  simp [exec, execInit, hl]

/-- The four values of `LC` that INIT admits are all but UNALLOC. -/
theorem Lifecycle.mem_init_admits {lc : Lifecycle} (hl : lc ≠ .unalloc) :
    lc ∈ [Lifecycle.alloc, .init, .ivset, .processed] := by
  cases lc with
  | unalloc => exact absurd rfl hl
  | alloc | init | ivset | processed => decide

section Init
variable {s : State} {c : KeyClass}

theorem exec_init_of_short (hl : s.eng.lc ≠ .unalloc) (hc : s.eng.kclass = some c)
    (hd : s.data.length < totalLen c) : exec .init s = .next (s.fail .invalidParameter) := by
  rw [totalLen_eq] at hd
  simp [exec, execInit, Lifecycle.mem_init_admits hl, -List.mem_cons, hc, hd]

theorem exec_init_of_long (hl : s.eng.lc ≠ .unalloc) (hc : s.eng.kclass = some c)
    (hd : totalLen c ≤ s.data.length) : exec .init s = .next (s.answer (s.eng.loadContext s.data) .ok []) := by
  rw [totalLen_eq] at hd
  simp [exec, execInit, Lifecycle.mem_init_admits hl, -List.mem_cons, hc, hd]

end Init

/-- The registers a successful INIT of class `c` leaves. -/
theorem Engine.loadContext_eq {e : Engine} {c : KeyClass} (hc : e.kclass = some c) (data : List Byte) :
    e.loadContext data =
      ⟨.init, some c, loadKey e.key (keyLen c) data, saltBlock (saltOf (keyLen c) data),
        saltBlock (saltOf (keyLen c) data), Primitive.reset⟩ := by
  simp [Engine.loadContext, hc, Engine.unseed, Primitive.reset]

theorem saltOf_length {k : Nat} {data : List Byte} (h : k + saltLen ≤ data.length) : (saltOf k data).length = 14 := by
  simp only [saltOf, List.length_take, List.length_drop, saltLen] at *
  omega

theorem loadKey_getElem_of_lt {key : KeyStore} {k : Nat} {data : List Byte} {i : Fin 32} (hi : i.val < k)
    (hd : k ≤ data.length) : data[i.val]? = some (loadKey key k data)[i] := by
  have hin : i.val < data.length := by omega
  rw [loadKey_getElem, if_pos hi, List.getElem?_eq_getElem hin, List.getD_eq_getElem _ _ hin]

theorem loadKey_getElem_of_le {key : KeyStore} {k : Nat} {data : List Byte} {i : Fin 32} (hi : k ≤ i.val) :
    (loadKey key k data)[i] = key[i] := by
  rw [loadKey_getElem, if_neg (by omega)]

/-- Settles O18: the row, each answer by the equation of its case, and the key store byte by byte. -/
theorem initLoadsKeyAndSalt : Obligations.InitLoadsKeyAndSalt := by
  refine ⟨fun _ => decode_init_iff, fun s => ⟨exec_init_of_unalloc, ?_, ?_⟩⟩
  · intro c hl hc hd
    exact exec_init_of_short hl hc (by rwa [totalLen_eq])
  · intro c hl hc hd
    refine ⟨saltBlock (saltOf (keyLen c) s.data), loadKey s.eng.key (keyLen c) s.data, ?_,
      bytes16_saltBlock (saltOf_length hd), fun i hi => loadKey_getElem_of_lt hi (by omega),
      fun i hi => loadKey_getElem_of_le hi⟩
    rw [exec_init_of_long hl hc (by rwa [totalLen_eq]), Engine.loadContext_eq hc]
    rfl

/-! ## The key slots (40_context_store.md R105) -/

/-- A key loaded over a store that is zero beyond it: the store is the key and then zeros. -/
theorem loadKey_toList {key : KeyStore} {k : Nat} {data : List Byte} (hk : k ≤ 32) (hd : k ≤ data.length)
    (htail : ∀ i : Fin 32, k ≤ i.val → key[i] = 0) :
    (loadKey key k data).toList = data.take k ++ List.replicate (32 - k) 0 := by
  refine List.ext_getElem (by simp; omega) fun i hi _ => ?_
  have hi32 : i < 32 := by simpa using hi
  have hget := loadKey_getElem key k data ⟨i, hi32⟩
  simp only [Fin.getElem_fin] at hget
  rw [Vector.getElem_toList, hget]
  by_cases hik : i < k
  · rw [if_pos hik, List.getD_eq_getElem _ _ (by omega), List.getElem_append_left (by simp; omega),
      List.getElem_take]
  · rw [if_neg hik, List.getElem_append_right (by simp; omega), List.getElem_replicate]
    exact htail ⟨i, hi32⟩ (by simpa using hik)

/-- The two halves of a store that holds `k` key bytes and then zeros, for a key of at least one slot. -/
theorem slots_of_key {k : Nat} {data : List Byte} (hlo : 16 ≤ k) (hd : k ≤ data.length) :
    (data.take k ++ List.replicate (32 - k) 0).take 16 = data.take 16 ∧
    (data.take k ++ List.replicate (32 - k) 0).drop 16 =
      (data.drop 16).take (k - 16) ++ List.replicate (32 - k) 0 := by
  have hlen : 16 ≤ (data.take k).length := by simp; omega
  rw [List.take_append_of_le_length hlen, List.drop_append_of_le_length hlen, List.take_take, List.drop_take,
    min_eq_left hlo]
  exact ⟨rfl, rfl⟩

theorem sixteen_le_keyLen (c : KeyClass) : 16 ≤ keyLen c := by cases c <;> decide

/-- Settles O19: INIT leaves the key and then zeros, and `slots_of_key` cuts that at byte 16. -/
theorem initFillsKeySlots : Obligations.InitFillsKeySlots := by
  intro s c hl hc hd htail
  have hk : keyLen c ≤ s.data.length := by rw [totalLen_eq] at hd; omega
  obtain ⟨hslot0, hslot1⟩ := slots_of_key (sixteen_le_keyLen c) hk
  refine ⟨_, exec_init_of_long hl hc hd, rfl, ?_⟩
  rw [State.answer_eng, Engine.loadContext_key, hc, keyLenOf_some, loadKey_toList (keyLen_le c) hk htail, hslot0,
    hslot1]
  refine ⟨rfl, ?_, ?_, ?_⟩ <;> rintro rfl <;> simp [keyLen]

/-! ## DEALLOC (40_context_store.md R106) -/

theorem decode_dealloc_iff {w : Word} : w &&& 0xFFFFFFFF = 0x00000005 ↔ decode w = .ok .dealloc :=
  ⟨fun h => decode_eq_ok_iff.mpr ⟨h, trivial⟩, fun h => (decode_eq_ok_iff.mp h).1⟩

/-- Settles O20: the row, and `Engine.zeroize` leaves the reset registers whatever was there. -/
theorem deallocZeroizes : Obligations.DeallocZeroizes :=
  ⟨fun _ => decode_dealloc_iff, fun _ => rfl⟩

/-- The invariants leave one value for the registers in UNALLOC. -/
theorem EngineInv.eq_reset {e : Engine} (h : EngineInv e) (hl : e.lc = .unalloc) : e = Engine.reset := by
  obtain ⟨hclass, hkey, hoffset, hcounter, hseeded⟩ := h.unalloc_zero hl
  obtain ⟨hpkclass, hpkey, hpctr0, hkspos⟩ := h.unseeded_zero hseeded
  obtain ⟨lc, kclass, key, offset, counter, ⟨seeded, pkclass, pkey, pctr0, kspos⟩⟩ := e
  simp only at *
  subst_vars
  rfl

/-- Settles O51: DEALLOC leaves the reset registers, which the invariants say UNALLOC has already. -/
theorem idempotentCommandsWriteNothing : Obligations.IdempotentCommandsWriteNothing :=
  fun _ _ hinv => ⟨fun hl h => by rw [execDealloc_cases h, hinv.eq_reset hl]; rfl, execGetDesc_eng⟩

/-! ## What makes a new SET_IV needed (70_reset_and_hazards.md R236) -/

theorem execInit_unseeds {s t : State} {r : Response} (h : exec .init s = .next t) (hr : t.resp = some r)
    (hok : r.status = .ok) : t.eng.lc = .init ∧ t.eng.prim = Primitive.reset := by
  obtain ⟨-, rfl⟩ | ⟨-, -, rfl⟩ | ⟨-, -, rfl⟩ := execInit_cases h <;> cases hr <;> cases hok
  exact ⟨rfl, rfl⟩

/-- Outside SELF_TEST, CIPHER_FAILURE is answered over an unseeded primitive in INIT only. -/
theorem exec_unseeds_of_cipherFailure {i : Instr} {s t : State} {r : Response} (hi : i ≠ .selfTest)
    (h : exec i s = .next t) (hr : t.resp = some r) (hst : r.status = .cipherFailure) :
    t.eng.lc = .init ∧ t.eng.prim = Primitive.reset := by
  cases i with
  | alloc klen tlen =>
    obtain ⟨-, rfl⟩ | ⟨-, -, rfl⟩ | ⟨_, -, -, -, rfl⟩ | ⟨_, -, -, -, rfl⟩ := execAlloc_cases h <;> cases hr <;>
      cases hst
  | init => obtain ⟨-, rfl⟩ | ⟨-, -, rfl⟩ | ⟨-, -, rfl⟩ := execInit_cases h <;> cases hr <;> cases hst
  | setIv dir =>
    obtain ⟨-, rfl⟩ | ⟨-, -, rfl⟩ | ⟨-, -, -, rfl⟩ | ⟨-, -, -, rfl⟩ := execSetIv_cases h <;> cases hr <;>
      cases hst
    exact ⟨rfl, rfl⟩
  | process dir =>
    obtain ⟨-, rfl⟩ | ⟨-, -, rfl⟩ | ⟨-, -, rfl⟩ | ⟨-, -, -, -, rfl⟩ | ⟨-, -, -, -, rfl⟩ := execProcess_cases h <;>
      cases hr <;> cases hst
    exact ⟨rfl, rfl⟩
  | dealloc => rw [execDealloc_cases h] at hr; cases hr; cases hst
  | getDesc => rw [execGetDesc_cases h] at hr; cases hr; cases hst
  | selfTest => exact absurd rfl hi

theorem exec_process_of_init {s : State} (dir : Direction) (hl : s.eng.lc = .init) :
    exec (.process dir) s = .next (s.fail .invalidState) := by
  simp [exec, execProcess, hl]

/-- Settles O50: both causes leave INIT with the primitive unseeded, and there a PROCESS is refused. -/
theorem reInitOrFailureNeedsNewSetIv : Obligations.ReInitOrFailureNeedsNewSetIv := by
  intro i s t u r dir h hr hcause
  have hunseeded : t.eng.lc = .init ∧ t.eng.prim = Primitive.reset := by
    obtain ⟨rfl, hok⟩ | ⟨hi, hst⟩ := hcause
    · exact execInit_unseeds h hr hok
    · exact exec_unseeds_of_cipherFailure hi h hr hst
  obtain ⟨hl, hprim⟩ := hunseeded
  exact ⟨hl, by rw [hprim]; rfl, fun hu => exec_process_of_init dir (by rw [hu, hl])⟩

/-! ## Every reachable state (10_state.md R29) -/

/-- The invariant holds after reset, and a delivery and a step keep it. -/
theorem Reachable.inv {s : State} (h : Reachable s) : Inv s := by
  induction h with
  | reset => exact resetMeetsInvariant
  | deliver ev _ ih => exact ⟨ih.engine, ih.data_gone, ih.draws_gone⟩
  | step _ ht ih => exact stepKeepsInvariant _ _ ih ht

/-- Settles O55: the seven items are clauses of the invariant that every reachable state meets. -/
theorem reachableStatesMeetInvariants : Obligations.ReachableStatesMeetInvariants := fun _ hs =>
  have h := hs.inv.engine
  ⟨h.unalloc_zero, h.alloc_zero, h.seeded_iff, h.seeded_snapshot, h.unseeded_zero, h.offset_low, h.ivset_start⟩

end Sys2Proof.Machine

/-! # Proofs of the statements of 41_counter_derivation.md: the derived counter, SET_IV, and the keystream it fixes for
the PROCESS behind it -/

namespace Sys2Proof.Machine

/-! ## The counter derivation (41_counter_derivation.md R131) -/

theorem blockByte_xor (a b : Block) (i : Nat) : blockByte (a ^^^ b) i = blockByte a i ^^^ blockByte b i :=
  BitVec.extractLsb'_xor

/-- Settles O16: the XOR works byte by byte, and the bytes of the nonce's block are the nonce's. -/
theorem deriveCounterIsBytewiseXor : Obligations.DeriveCounterIsBytewiseXor := fun offset nonce hlen =>
  ⟨rfl, fun i b hb => by rw [deriveCounter, blockByte_xor, blockByte_be128 hlen hb]⟩

/-! ## SET_IV (41_counter_derivation.md R130) -/

/-- Every word that matches SET_IV's row is a SET_IV: `DIR` is its operand. -/
theorem decode_setIv_iff {w : Word} : w &&& 0xFFFFFFEF = 0x00000003 ↔ ∃ dir, decode w = .ok (.setIv dir) :=
  ⟨fun h => ⟨dirOf w, decode_eq_ok_iff.mpr ⟨h, rfl⟩⟩, fun ⟨_, h⟩ => (decode_eq_ok_iff.mp h).1⟩

section SetIv
variable {s : State} (dir : Direction)

theorem exec_setIv_of_no_key (hl : s.eng.lc = .unalloc ∨ s.eng.lc = .alloc) :
    exec (.setIv dir) s = .next (s.fail .invalidState) := by
  obtain hl | hl := hl <;> simp [exec, execSetIv, hl]

theorem exec_setIv_of_short (hl : s.eng.lc = .init ∨ s.eng.lc = .ivset ∨ s.eng.lc = .processed)
    (hd : s.data.length < 16) : exec (.setIv dir) s = .next (s.fail .invalidParameter) := by
  obtain hl | hl | hl := hl <;> simp [exec, execSetIv, hl, hd]

/-- With a whole nonce, where `LC` admits it, SET_IV derives the counter, and the draw alone decides the rest. -/
theorem exec_setIv_of_nonce (hl : s.eng.lc = .init ∨ s.eng.lc = .ivset ∨ s.eng.lc = .processed)
    (hd : 16 ≤ s.data.length) :
    exec (.setIv dir) s = .next
      (if s.primOk 0 = true then s.answer (s.eng.derive (nonceOf s.data)).seedFromContext .ok []
      else s.answer (s.eng.derive (nonceOf s.data)).cipherFailed .cipherFailure []) := by
  obtain hl | hl | hl := hl <;> simp [exec, execSetIv, hl, hd]

theorem exec_setIv_of_draw_true (hl : s.eng.lc = .init ∨ s.eng.lc = .ivset ∨ s.eng.lc = .processed)
    (hd : 16 ≤ s.data.length) (hp : s.primOk 0 = true) :
    exec (.setIv dir) s = .next (s.answer (s.eng.derive (nonceOf s.data)).seedFromContext .ok []) := by
  rw [exec_setIv_of_nonce dir hl hd, if_pos hp]

theorem exec_setIv_of_draw_false (hl : s.eng.lc = .init ∨ s.eng.lc = .ivset ∨ s.eng.lc = .processed)
    (hd : 16 ≤ s.data.length) (hp : s.primOk 0 = false) :
    exec (.setIv dir) s = .next (s.answer (s.eng.derive (nonceOf s.data)).cipherFailed .cipherFailure []) := by
  rw [exec_setIv_of_nonce dir hl hd, if_neg (Bool.eq_false_iff.mp hp)]

end SetIv

/-- Settles O21: the row by `decode_setIv_iff`, and each answer by the equation of its case. -/
theorem setIvDerivesAndSeeds : Obligations.SetIvDerivesAndSeeds :=
  ⟨fun _ => decode_setIv_iff, fun _ dir => ⟨exec_setIv_of_no_key dir, exec_setIv_of_short dir,
    exec_setIv_of_draw_false dir, exec_setIv_of_draw_true dir⟩⟩

/-! ## Determinism and overwrite (41_counter_derivation.md R132) -/

/-- A SET_IV answered OK has seeded the primitive from the context and the nonce. -/
theorem execSetIv_eng_of_ok {dir : Direction} {s t : State} {rd : List Byte} (h : exec (.setIv dir) s = .next t)
    (hr : t.resp = some ⟨.ok, rd⟩) : t.eng = (s.eng.derive (nonceOf s.data)).seedFromContext := by
  obtain ⟨-, rfl⟩ | ⟨-, -, rfl⟩ | ⟨-, -, -, rfl⟩ | ⟨-, -, -, rfl⟩ := execSetIv_cases h <;> cases hr
  rfl

/-- Of the registers, the seeding from a nonce reads `KCLASS`, `KEY` and `OFFSET`. -/
theorem seedFromContext_derive_congr {e e' : Engine} (hclass : e.kclass = e'.kclass) (hkey : e.key = e'.key)
    (hoffset : e.offset = e'.offset) (nonce : List Byte) :
    (e.derive nonce).seedFromContext = (e'.derive nonce).seedFromContext := by
  simp [Engine.seedFromContext, Engine.derive, Engine.seed, hclass, hkey, hoffset]

/-- Settles O22: the registers after an OK are a function of the context and the nonce, and neither answer of
`exec_setIv_of_nonce` reads the old counter. -/
theorem setIvIsDeterminedByContextAndNonce : Obligations.SetIvIsDeterminedByContextAndNonce := by
  refine ⟨?_, fun s dir old hl hd => ?_⟩
  · intro s s' t t' dir dir' hoffset hclass hkey hnonce h hr h' hr'
    have heng : t.eng = t'.eng := by
      rw [execSetIv_eng_of_ok h hr, execSetIv_eng_of_ok h' hr', nonceOf, nonceOf, hnonce,
        seedFromContext_derive_congr hclass hkey hoffset]
    rw [heng]
    exact ⟨rfl, rfl, fun _ _ _ _ => rfl⟩
  · rw [exec_setIv_of_nonce (s := { s with eng := { s.eng with counter := old } }) dir hl hd,
      exec_setIv_of_nonce dir hl hd]
    rfl

/-! ## The direction (41_counter_derivation.md R133) -/

theorem exec_setIv_dir (dir dir' : Direction) (s : State) : exec (.setIv dir) s = exec (.setIv dir') s := rfl

/-- The step at a word that decodes: the instruction runs on the operands that the port hands over. -/
theorem step_of_decode_ok {s : State} {c : Command} {rest : List PortEvent} {i : Instr}
    (hin : s.inbox = .command c :: rest) (hi : decode c.cmd = .ok i) :
    step s = retireOutcome (exec i (s.takeCommand c rest)) := by
  rw [step_command hin, runWord_of_decode hi]

/-- Settles O23: the words decode to SET_IVs that differ in `DIR` alone, and the port hands over the same operands. -/
theorem setIvIgnoresDirection : Obligations.SetIvIgnoresDirection := by
  intro s data d rest
  have hencrypt : decode 0x00000003 = .ok (.setIv .encrypt) := by decide
  have hdecrypt : decode 0x00000013 = .ok (.setIv .decrypt) := by decide
  rw [step_of_decode_ok (c := ⟨0x00000003, data, d⟩) rfl hencrypt,
    step_of_decode_ok (c := ⟨0x00000013, data, d⟩) rfl hdecrypt, exec_setIv_dir .decrypt .encrypt]
  rfl

/-! ## SET_IV and the PROCESS behind it (42_cipher_driver.md R154)

The first PROCESS after a SET_IV XORs its buffer with a keystream that the context and the nonce determine, so the same
nonce undoes it. -/

/-- Every word that matches PROCESS's row is a PROCESS (42_cipher_driver.md R150). -/
theorem decode_process_iff {w : Word} : w &&& 0xFFFFFFEF = 0x00000004 ↔ ∃ dir, decode w = .ok (.process dir) :=
  ⟨fun h => ⟨dirOf w, decode_eq_ok_iff.mpr ⟨h, rfl⟩⟩, fun ⟨_, h⟩ => (decode_eq_ok_iff.mp h).1⟩

theorem xorStream_eq_nil_iff {ks : Nat → Byte} {buf : List Byte} : xorStream ks buf = [] ↔ buf = [] :=
  List.mapIdx_eq_nil_iff

/-- XORing twice with one keystream gives back the buffer. -/
theorem xorStream_xorStream (ks : Nat → Byte) (buf : List Byte) : xorStream ks (xorStream ks buf) = buf := by
  refine List.ext_getElem? fun j => ?_
  rw [xorStream_getElem?, xorStream_getElem?]
  cases buf[j]? with
  | none => rfl
  | some b => simp

/-- A PROCESS within the bound answers OK where its draw, which only a nonempty buffer makes, succeeds: the buffer
XORed with the keystream. -/
theorem exec_process_of_ok {s : State} (dir : Direction) (hl : s.eng.lc = .ivset ∨ s.eng.lc = .processed)
    (hd : s.data.length ≤ Config.maxDataLen) (hp : s.data ≠ [] → s.primOk 0 = true) :
    exec (.process dir) s = .next
      (s.answer { s.eng.advance s.data.length with lc := .processed } .ok (xorStream s.ks s.data)) := by
  have hlc : s.eng.lc ∈ [Lifecycle.ivset, .processed] := by simpa using hl
  simp only [exec, execProcess]
  rw [if_neg (not_not_intro hlc), if_neg hd.not_gt]
  by_cases hnil : s.data = []
  · rw [if_pos hnil, hnil]
    rfl
  · rw [if_neg hnil, if_pos (hp hnil)]

/-- The keystream that a successful SET_IV with this nonce fixes for the PROCESS behind it. -/
def freshKeystream (e : Engine) (nonce : List Byte) : Nat → Byte :=
  ksByte Config.ctrIncWidth (e.derive nonce).seedFromContext.prim

theorem freshKeystream_congr {e e' : Engine} (hclass : e.kclass = e'.kclass) (hkey : e.key = e'.key)
    (hoffset : e.offset = e'.offset) (nonce : List Byte) : freshKeystream e nonce = freshKeystream e' nonce := by
  rw [freshKeystream, freshKeystream, seedFromContext_derive_congr hclass hkey hoffset]

/-- It is the keystream of a PROCESS whatever `KS_CONTINUATION` is, since `KSPOS` is 0. -/
theorem State.ks_of_seeded {s : State} {e : Engine} {nonce : List Byte}
    (h : s.eng = (e.derive nonce).seedFromContext) : s.ks = freshKeystream e nonce := by
  funext j
  rw [State.ks, h]
  exact keystream_fresh rfl _ _ _ j

/-- A SET_IV `v` and a PROCESS `p` are next on the port, and nothing keeps either from answering OK. -/
structure PacketOnPort (s : State) (v p : Command) (rest : List PortEvent) : Prop where
  inbox : s.inbox = .command v :: .command p :: rest
  keyed : s.eng.lc = .init ∨ s.eng.lc = .ivset ∨ s.eng.lc = .processed
  setIv : v.cmd = 0x00000003 ∨ v.cmd = 0x00000013
  process : p.cmd = 0x00000004 ∨ p.cmd = 0x00000014
  nonce : 16 ≤ v.data.length
  bound : p.data.length ≤ Config.maxDataLen
  setIv_draw : (v.draws.primOk[0]?).getD (Config.freePrimOk (s.serial + 1) 0) = true
  process_draw : p.data ≠ [] → (p.draws.primOk[0]?).getD (Config.freePrimOk (s.serial + 2) 0) = true

/-- The state that a successful SET_IV `v` leaves between the two commands of a packet. -/
def afterSetIv (s : State) (v : Command) (rest : List PortEvent) : State :=
  ((s.takeCommand v rest).answer (s.eng.derive (nonceOf v.data)).seedFromContext .ok []).retire

section Packet
variable {s : State} {v p : Command} {rest : List PortEvent}

theorem PacketOnPort.step_setIv (h : PacketOnPort s v p rest) :
    step s = .next (afterSetIv s v (.command p :: rest)) := by
  obtain ⟨dir, hdec⟩ : ∃ dir, decode v.cmd = .ok (.setIv dir) :=
    decode_setIv_iff.mp (by obtain hw | hw := h.setIv <;> rw [hw] <;> decide)
  rw [step_of_decode_ok h.inbox hdec,
    exec_setIv_of_draw_true (s := s.takeCommand v _) dir h.keyed h.nonce h.setIv_draw]
  rfl

theorem PacketOnPort.step_process (h : PacketOnPort s v p rest) :
    ∃ t, step (afterSetIv s v (.command p :: rest)) = .next t ∧
      t.resp = some ⟨.ok, xorStream (freshKeystream s.eng (nonceOf v.data)) p.data⟩ := by
  obtain ⟨dir, hdec⟩ : ∃ dir, decode p.cmd = .ok (.process dir) :=
    decode_process_iff.mp (by obtain hw | hw := h.process <;> rw [hw] <;> decide)
  rw [step_of_decode_ok rfl hdec, exec_process_of_ok dir (.inl rfl) h.bound h.process_draw,
    State.ks_of_seeded (e := s.eng) (nonce := nonceOf v.data) rfl]
  exact ⟨_, rfl, rfl⟩

/-- Two steps at a packet answer OK with its buffer XORed with the keystream of its context and nonce. -/
theorem PacketOnPort.run (h : PacketOnPort s v p rest) :
    ∃ t : State, Host.Core.run core 2 s = .next t ∧
      t.resp = some ⟨.ok, xorStream (freshKeystream s.eng (nonceOf v.data)) p.data⟩ := by
  obtain ⟨t, hstep, hresp⟩ := h.step_process
  exact ⟨t, by rw [run_next h.step_setIv, run_next hstep]; rfl, hresp⟩

end Packet

/-- Settles O31: both packets are XORed with the one keystream that their contexts and nonces determine, and the second
XOR undoes the first. -/
theorem encryptThenDecryptRestoresBuffer : Obligations.EncryptThenDecryptRestoresBuffer := by
  intro s s' w1 w2 w3 w4 iv x d1 d2 d3 d4 rest rest' hw1 hw2 hw3 hw4 hl hl' hclass hkey hoffset hiv hx hd1 hd2 hd3 hd4
    hin
  have hpacket : PacketOnPort s ⟨w1, iv, d1⟩ ⟨w2, x, d2⟩ rest := ⟨hin, hl, hw1, hw2, hiv.ge, hx, hd1, hd2⟩
  obtain ⟨t, hrun, hresp⟩ := hpacket.run
  refine ⟨t, _, hrun, hresp, xorStream_length _ _, fun hin' => ?_⟩
  have hpacket' : PacketOnPort s' ⟨w3, iv, d3⟩ ⟨w4, xorStream (freshKeystream s.eng (nonceOf iv)) x, d4⟩ rest' :=
    ⟨hin', hl', hw3, hw4, hiv.ge, by rwa [xorStream_length], hd3, fun hy => hd4 (mt xorStream_eq_nil_iff.mpr hy)⟩
  obtain ⟨t', hrun', hresp'⟩ := hpacket'.run
  refine ⟨t', hrun', ?_⟩
  rw [hresp', freshKeystream_congr hclass hkey hoffset, xorStream_xorStream]

end Sys2Proof.Machine

/-! # Proofs of the statements of 42_cipher_driver.md: PROCESS, the keystream, and the counter it encrypts -/

namespace Sys2Proof.Machine

/-! ## The counter increment (42_cipher_driver.md R151)

Both widths are described by the two fields of the block they give: the block counter, where they agree, and the upper
112 bits, where only the full width carries. -/

theorem block_ext {c c' : Block} (hhigh : c.extractLsb' 16 112 = c'.extractLsb' 16 112)
    (hlow : c.extractLsb' 0 16 = c'.extractLsb' 0 16) : c = c' :=
  BitVec.eq_of_toNat_eq (by rw [block_toNat c, block_toNat c', hhigh, hlow])

theorem inc_w128_toNat (c : Block) (b : Nat) : (inc .w128 c b).toNat = (c.toNat + b) % 2 ^ 128 := by
  simp [inc]

theorem inc_w128_low (c : Block) (b : Nat) :
    (inc .w128 c b).extractLsb' 0 16 = c.extractLsb' 0 16 + BitVec.ofNat 16 b := by
  refine BitVec.eq_of_toNat_eq ?_
  simp only [BitVec.extractLsb'_toNat, BitVec.toNat_add, BitVec.toNat_ofNat, inc_w128_toNat, Nat.shiftRight_zero]
  omega

/-- The upper bits of a full-width increment grow by the carries out of the block counter. -/
theorem inc_w128_high (c : Block) (b : Nat) :
    (inc .w128 c b).extractLsb' 16 112 =
      c.extractLsb' 16 112 + BitVec.ofNat 112 (((c.extractLsb' 0 16).toNat + b) / 2 ^ 16) := by
  refine BitVec.eq_of_toNat_eq ?_
  simp only [BitVec.extractLsb'_toNat, BitVec.toNat_add, BitVec.toNat_ofNat, inc_w128_toNat,
    Nat.shiftRight_eq_div_pow]
  omega

theorem inc_zero (w : CtrIncWidth) (c : Block) : inc w c 0 = c := by
  cases w with
  | w16 => exact block_ext (inc_w16_high c 0) (by simp [inc_w16_low])
  | w128 => simp [inc]

/-- Before the block counter overflows, no carry tells the widths apart. -/
theorem inc_w16_eq_inc_w128 {c : Block} {b : Nat} (h : (c.extractLsb' 0 16).toNat + b < 2 ^ 16) :
    inc .w16 c b = inc .w128 c b :=
  block_ext (by rw [inc_w16_high, inc_w128_high, Nat.div_eq_of_lt h, BitVec.add_zero])
    (by rw [inc_w16_low, inc_w128_low])

/-- A 16-bit increment sees the block number modulo `2 ^ 16` only. -/
theorem inc_w16_add_period (c : Block) (b : Nat) : inc .w16 c (b + 2 ^ 16) = inc .w16 c b := by
  have hb : BitVec.ofNat 16 (b + 2 ^ 16) = BitVec.ofNat 16 b := BitVec.eq_of_toNat_eq (by simp)
  rw [inc, inc, hb]

/-! ## Keystream bytes (42_cipher_driver.md R151, 70_reset_and_hazards.md R238) -/

/-- Byte `pos` is byte `pos mod 16` of its block's string. -/
theorem bytes16_ksBlock_getElem? (w : CtrIncWidth) (p : Primitive) (pos : Nat) :
    (bytes16 (ksBlock w p (pos / 16)))[pos % 16]? = some (ksByte w p pos) :=
  bytes16_getElem? _ (Nat.mod_lt pos (by decide))

/-- Keystream bytes at the same place of blocks that encrypt the same counter are equal. -/
theorem ksByte_congr {w w' : CtrIncWidth} {p : Primitive} {pos pos' : Nat} (hplace : pos % 16 = pos' % 16)
    (hctr : inc w p.pctr0 (pos / 16) = inc w' p.pctr0 (pos' / 16)) : ksByte w p pos = ksByte w' p pos' := by
  rw [ksByte, ksByte, ksBlock, ksBlock, hplace, hctr]

/-- Settles O28: the increment by its two fields, and the bytes of a block by `bytes16_ksBlock_getElem?`. -/
theorem keystreamEncryptsSuccessiveCounters : Obligations.KeystreamEncryptsSuccessiveCounters := by
  refine ⟨fun c b => ⟨inc_w128_toNat c b, inc_w16_high c b, ?_⟩, inc_zero, fun c b hne => ?_, fun w p c pos hc => ?_⟩
  · rw [inc_w16_low, BitVec.toNat_add, BitVec.toNat_ofNat, Nat.add_mod_mod]
  · exact not_lt.mp (mt inc_w16_eq_inc_w128 hne)
  · have hbyte := bytes16_ksBlock_getElem? w p pos
    rwa [ksBlock, hc, keyLenOf_some] at hbyte

/-- Settles O30: bytes `2 ^ 20` apart lie at one place of blocks `2 ^ 16` apart, and below the bound the block counter
has not overflowed. -/
theorem keystreamWrapsAtSixteenBits : Obligations.KeystreamWrapsAtSixteenBits := by
  refine fun p pos => ⟨ksByte_congr (by omega) ?_, inc_w16_add_period p.pctr0, inc_w128_high p.pctr0, fun hpos =>
    ksByte_congr rfl (inc_w16_eq_inc_w128 (by omega))⟩
  rw [show (pos + 1048576) / 16 = pos / 16 + 2 ^ 16 by omega, inc_w16_add_period]

/-! ## Where the keystream starts (42_cipher_driver.md R152) -/

/-- Settles O29: the settings case by case, the machine's own by definition, and a SET_IV answered OK leaves `KSPOS`
at 0, where `keystream_fresh` speaks of every setting. -/
theorem keystreamStartFollowsContinuation : Obligations.KeystreamStartFollowsContinuation := by
  refine ⟨fun w p draw j => ⟨rfl, rfl, fun h => keystream_fresh h _ w draw j, fun h => if_neg h⟩,
    fun s j => ⟨rfl, fun b => State.ksDraw_of_listed⟩, fun s t dir h hr => ?_⟩
  have hstart : t.eng.prim.kspos = 0 := by rw [execSetIv_eng_of_ok h hr]; rfl
  exact keystream_fresh hstart

/-! ## PROCESS (42_cipher_driver.md R150) -/

section Process
variable {s : State} (dir : Direction)

theorem exec_process_of_no_iv (hl : s.eng.lc = .unalloc ∨ s.eng.lc = .alloc ∨ s.eng.lc = .init) :
    exec (.process dir) s = .next (s.fail .invalidState) := by
  obtain hl | hl | hl := hl <;> simp [exec, execProcess, hl]

theorem exec_process_of_long (hl : s.eng.lc = .ivset ∨ s.eng.lc = .processed)
    (hd : Config.maxDataLen < s.data.length) : exec (.process dir) s = .next (s.fail .invalidParameter) := by
  obtain hl | hl := hl <;> simp [exec, execProcess, hl, hd]

theorem exec_process_of_draw_false (hl : s.eng.lc = .ivset ∨ s.eng.lc = .processed) (hne : 0 < s.data.length)
    (hd : s.data.length ≤ Config.maxDataLen) (hp : s.primOk 0 = false) :
    exec (.process dir) s = .next (s.answer s.eng.cipherFailed .cipherFailure []) := by
  have hnil : s.data ≠ [] := List.ne_nil_of_length_pos hne
  obtain hl | hl := hl <;> simp [exec, execProcess, hl, hd.not_gt, hnil, hp]

/-- An empty buffer is within the bound and makes no draw; it advances nothing. -/
theorem exec_process_of_nil (hl : s.eng.lc = .ivset ∨ s.eng.lc = .processed) (hd : s.data = []) :
    exec (.process dir) s = .next (s.answer { s.eng with lc := .processed } .ok []) := by
  rw [exec_process_of_ok dir hl (by simp [hd]) (absurd hd), hd]
  rfl

end Process

/-- Settles O25: the row by `decode_process_iff`, and each answer by the equation of its case. -/
theorem processXorsKeystream : Obligations.ProcessXorsKeystream := by
  refine ⟨fun _ => decode_process_iff, fun s dir => ⟨exec_process_of_no_iv dir, exec_process_of_long dir,
    fun hl hd => exec_process_of_nil dir hl (List.length_eq_zero_iff.mp hd), exec_process_of_draw_false dir,
    fun hl _ hd hp => ?_⟩⟩
  refine ⟨xorStream s.ks s.data, xorStream_length _ _, fun j b hb => ?_, exec_process_of_ok dir hl hd fun _ => hp⟩
  rw [xorStream_getElem?, hb, Option.map_some]

/-- Settles O27: an empty buffer is answered by `exec_process_of_nil`, which leaves the primitive that the keystream
reads. -/
theorem processOfNothingSucceeds : Obligations.ProcessOfNothingSucceeds := fun s dir d hl hd =>
  ⟨_, exec_process_of_nil (s := { s with draws := d }) dir hl hd, rfl, rfl, rfl, rfl, fun _ _ _ _ => rfl⟩

/-- A PROCESS answered OK, of whatever length, returns its buffer XORed with the keystream. -/
theorem execProcess_rdata_of_ok {dir : Direction} {s t : State} {out : List Byte}
    (h : exec (.process dir) s = .next t) (hr : t.resp = some ⟨.ok, out⟩) : out = xorStream s.ks s.data := by
  obtain ⟨-, rfl⟩ | ⟨-, -, rfl⟩ | ⟨-, hnil, rfl⟩ | ⟨-, -, -, -, rfl⟩ | ⟨-, -, -, -, rfl⟩ := execProcess_cases h <;>
    cases hr
  · rw [hnil]; rfl
  · rfl

/-- Settles O32: both results are XORed buffers, whose byte `j` is read from byte `j` of each operand. -/
theorem processWorksByteByByte : Obligations.ProcessWorksByteByByte := by
  intro s s' t t' dir dir' out out' h hr h' hr'
  rw [execProcess_rdata_of_ok h hr, execProcess_rdata_of_ok h' hr']
  refine ⟨xorStream_length _ _, fun j hdata hks => ?_⟩
  rw [xorStream_getElem?, xorStream_getElem?, hdata, hks]

theorem exec_process_dir (dir dir' : Direction) (s : State) : exec (.process dir) s = exec (.process dir') s := rfl

/-- Two words that decode to instructions of one meaning make one step, on the same DATA and draws. -/
theorem step_eq_of_exec_eq {w w' : Word} {i i' : Instr} (hi : decode w = .ok i) (hi' : decode w' = .ok i')
    (hexec : ∀ s, exec i s = exec i' s) (s : State) (data : List Byte) (d : Draws) (rest : List PortEvent) :
    step { s with inbox := .command ⟨w, data, d⟩ :: rest } =
      step { s with inbox := .command ⟨w', data, d⟩ :: rest } := by
  rw [step_of_decode_ok (c := ⟨w, data, d⟩) rfl hi, step_of_decode_ok (c := ⟨w', data, d⟩) rfl hi', hexec]
  rfl

/-- Settles O26: the words decode to PROCESSes that differ in `DIR` alone, which has no effect. -/
theorem processIgnoresDirection : Obligations.ProcessIgnoresDirection :=
  step_eq_of_exec_eq (i := .process .encrypt) (i' := .process .decrypt) (by decide) (by decide)
    (exec_process_dir .encrypt .decrypt)

end Sys2Proof.Machine

/-! # Proofs of the statements of 43_lifecycle_selftest.md: SELF_TEST and its classes, GET_DESC, the lifecycle table -/

namespace Sys2Proof.Machine

/-! ## The fixtures and their order (43_lifecycle_selftest.md R171, R172) -/

/-- Settles O36: the AES192 entry is there exactly where both parameters give it. -/
theorem selfTestClassOrder : Obligations.SelfTestClassOrder := ⟨fun _ => rfl, rfl, fun _ => rfl⟩

/-- Settles O33: the bytes by evaluation of the hex literals, and the AES-192 fixture's place by O36. -/
theorem knownAnswerFixtures : Obligations.KnownAnswerFixtures := by
  obtain ⟨horder, -, -⟩ := selfTestClassOrder
  refine ⟨by decide, by decide, fun henabled f hf => ?_⟩
  rw [henabled, hf, horder]
  simp

/-! ## GET_DESC (43_lifecycle_selftest.md R174) -/

theorem decode_getDesc_iff {w : Word} : w &&& 0xFFFFFFFF = 0x00000006 ↔ decode w = .ok .getDesc :=
  ⟨fun h => decode_eq_ok_iff.mpr ⟨h, trivial⟩, fun h => (decode_eq_ok_iff.mp h).1⟩

/-- Settles O39: the row, and the one answer GET_DESC has. -/
theorem getDescReturnsDescription : Obligations.GetDescReturnsDescription :=
  ⟨fun _ => decode_getDesc_iff, fun _ => rfl⟩

/-! ## What SELF_TEST leaves (43_lifecycle_selftest.md R171, R173) -/

theorem exec_selfTest_of_allocated {s : State} (hl : s.eng.lc ≠ .unalloc) :
    exec .selfTest s = .next (s.fail .invalidState) := by
  simp [exec, execSelfTest, hl]

theorem exec_selfTest_of_unalloc {s : State} (hl : s.eng.lc = .unalloc) :
    exec .selfTest s = .next (selfTestOn (selfTestCases Config.aes192Enabled Config.kat192) s) := by
  simp [exec, execSelfTest, hl]

/-- The statuses a SELF_TEST that runs can end with. -/
def Status.OfSelfTest (st : Status) : Prop := st ≠ .invalidState ∧ st ≠ .illegalCommand

theorem testClasses_error_ofSelfTest {s : State} {cases : List (KeyClass × KnownAnswer)} {r : TestRun} {st : Status}
    (h : testClasses s cases r = .error st) : st ≠ .ok ∧ st.OfSelfTest := by
  obtain rfl | rfl | rfl | rfl := testClasses_error cases h <;> exact ⟨nofun, nofun, nofun⟩

/-- A SELF_TEST that the lifecycle admits answers over the reset registers, with no data. -/
theorem execSelfTest_eq_answer {s t : State} (hl : s.eng.lc = .unalloc) (h : exec .selfTest s = .next t) :
    ∃ st, st.OfSelfTest ∧ t = s.answer Engine.reset st [] := by
  have heng := execSelfTest_eng_of_unalloc hl h
  obtain ⟨hne, -⟩ | ⟨st, -, herror, rfl⟩ | ⟨r, -, -, rfl⟩ := execSelfTest_cases h
  · exact absurd hl hne
  · exact ⟨st, (testClasses_error_ofSelfTest herror).2, rfl⟩
  · rw [State.answer_eng] at heng
    exact ⟨.ok, ⟨nofun, nofun⟩, by rw [heng]⟩

/-- Settles O34: refused with a context allocated, and answered over the reset registers without one. -/
theorem selfTestEndsZeroized : Obligations.SelfTestEndsZeroized := by
  refine fun s => ⟨exec_selfTest_of_allocated, fun hl => ?_⟩
  have hexec := exec_selfTest_of_unalloc hl
  obtain ⟨st, ⟨hstate, hcommand⟩, ht⟩ := execSelfTest_eq_answer hl hexec
  exact ⟨st, hstate, hcommand, by rw [hexec, ht]; rfl⟩

/-- Settles O38: the registers that any admitted SELF_TEST leaves are those of reset, from which ALLOC takes an AES-128
length. -/
theorem selfTestFailureIsNotLatched : Obligations.SelfTestFailureIsNotLatched := by
  intro s t u tlen hl ht hu hdraw
  have hlu : u.eng.lc = .unalloc := by rw [hu, execSelfTest_eng_of_unalloc hl ht]; rfl
  have hclass : classOf Config.aes192Enabled 30 = some .aes128 := classOf_eq_some_iff.mpr ⟨rfl, nofun⟩
  exact ⟨_, exec_alloc_of_draw_true tlen hlu hclass hdraw, rfl, rfl, rfl⟩

/-! ## One class of a self-test (43_lifecycle_selftest.md R171)

A class passes exactly where its test goes on to the next class; otherwise the first step that fails, in the order of the
calls, gives the status. -/

theorem malformed_eq_false_iff {c : KeyClass} {f : KnownAnswer} : malformed c f = false ↔
    f.keySalt.length = totalLen c ∧ f.nonce.length = 16 ∧ f.pt.length = f.ct.length := by
  simp [malformed, and_assoc]

theorem malformed_eq_true_iff {c : KeyClass} {f : KnownAnswer} : malformed c f = true ↔
    f.keySalt.length ≠ totalLen c ∨ f.nonce.length ≠ 16 ∨ f.pt.length ≠ f.ct.length := by
  simp [malformed, or_assoc]

/-- An XORed buffer is the string of the same length that has, at every place, the buffer's byte XOR the keystream's. -/
theorem xorStream_eq_iff {ks : Nat → Byte} {buf out : List Byte} : xorStream ks buf = out ↔
    out.length = buf.length ∧ ∀ (j : Nat) (b : Byte), buf[j]? = some b → out[j]? = some (b ^^^ ks j) := by
  constructor
  · rintro rfl
    exact ⟨xorStream_length ks buf, fun j b hb => by rw [xorStream_getElem?, hb, Option.map_some]⟩
  · rintro ⟨hlen, hbytes⟩
    refine List.ext_getElem? fun j => ?_
    rw [xorStream_getElem?]
    cases hb : buf[j]? with
    | some b => rw [hbytes j b hb, Option.map_some]
    | none =>
      rw [Option.map_none, eq_comm, List.getElem?_eq_none_iff, hlen]
      exact List.getElem?_eq_none_iff.mp hb

section TestClass
variable {s : State} {c : KeyClass} {f : KnownAnswer} {r : TestRun}

theorem testClass_of_malformed (hf : malformed c f = true) : testClass s c f r = .error .invalidParameter := by
  simp [testClass, hf]

theorem testClass_of_alloc_false (hf : malformed c f = false) (ha : s.allocOk r.a = false) :
    testClass s c f r = .error .allocationFailure := by
  simp [testClass, hf, ha]

theorem testClass_of_init_false (hf : malformed c f = false) (ha : s.allocOk r.a = true) (hp : s.primOk r.p = false) :
    testClass s c f r = .error .cipherFailure := by
  simp [testClass, hf, ha, hp]

theorem testClass_of_update_false (hf : malformed c f = false) (ha : s.allocOk r.a = true) (hp : s.primOk r.p = true)
    (hpt : f.pt ≠ []) (hq : s.primOk (r.p + 1) = false) : testClass s c f r = .error .cipherFailure := by
  simp [testClass, hf, ha, hp, hpt, hq]

/-- Where no draw fails, the output that the fixture itself determines decides. -/
theorem testClass_of_draws_true (hf : malformed c f = false) (ha : s.allocOk r.a = true) (hp : s.primOk r.p = true)
    (hq : f.pt ≠ [] → s.primOk (r.p + 1) = true) :
    testClass s c f r =
      if xorStream (ksByte Config.ctrIncWidth (fixturePrimitive c f)) f.pt = f.ct then
        .ok ⟨Engine.reset, r.a + 1, nextPrimDraw r.p f⟩
      else .error .selfTestFailure := by
  have hupdate : ¬ (f.pt ≠ [] ∧ s.primOk (r.p + 1) = false) := fun ⟨hpt, hfalse⟩ =>
    Bool.false_ne_true (hfalse.symm.trans (hq hpt))
  simp only [testClass, testOutput, seededForTest_prim, Engine.zeroize_eq_reset, hf, ha, hp, Bool.true_eq_false,
    Bool.false_eq_true, if_false, if_neg hupdate, ite_not]

theorem testClass_of_passes (h : Passes s r.a r.p c f) :
    testClass s c f r = .ok ⟨Engine.reset, r.a + 1, nextPrimDraw r.p f⟩ := by
  have hf := malformed_eq_false_iff.mpr ⟨h.key_salt_length, h.nonce_length, h.ct_length.symm⟩
  rw [testClass_of_draws_true hf h.alloc_ok h.init_ok h.update_ok,
    if_pos (xorStream_eq_iff.mpr ⟨h.ct_length, h.output⟩)]

theorem testClass_eq_ok {x : TestRun} (h : testClass s c f r = .ok x) :
    Passes s r.a r.p c f ∧ x = ⟨Engine.reset, r.a + 1, nextPrimDraw r.p f⟩ := by
  obtain ⟨-, e⟩ | ⟨-, -, e⟩ | ⟨-, -, -, e⟩ | ⟨-, -, -, -, -, e⟩ | ⟨-, -, -, -, -, e⟩ | ⟨hf, ha, hp, hq, hout, e⟩ :=
    testClass_cases h <;> cases e
  obtain ⟨hkey, hnonce, -⟩ := malformed_eq_false_iff.mp hf
  obtain ⟨hct, hbytes⟩ := xorStream_eq_iff.mp hout
  exact ⟨⟨hkey, hnonce, hct, ha, hp, hq, hbytes⟩, rfl⟩

end TestClass

/-! ## A list of classes (43_lifecycle_selftest.md R171) -/

/-- Every class of a list passes, the draws numbered from `a` and `p` on in the order of the calls. -/
def AllPass (s : State) (cases : List (KeyClass × KnownAnswer)) (a p : Nat) : Prop :=
  ∀ (n : Nat) (c : KeyClass) (f : KnownAnswer), cases[n]? = some (c, f) →
    Passes s (a + n) (p + primDraws (cases.take n)) c f

theorem nextPrimDraw_add_primDraws (p : Nat) (c : KeyClass) (f : KnownAnswer) (rest : List (KeyClass × KnownAnswer)) :
    nextPrimDraw p f + primDraws rest = p + primDraws ((c, f) :: rest) := by
  simp only [nextPrimDraw, primDraws]
  split_ifs <;> omega

theorem allPass_nil (s : State) (a p : Nat) : AllPass s [] a p := nofun

theorem allPass_cons {s : State} {c : KeyClass} {f : KnownAnswer} {rest : List (KeyClass × KnownAnswer)} {a p : Nat} :
    AllPass s ((c, f) :: rest) a p ↔ Passes s a p c f ∧ AllPass s rest (a + 1) (nextPrimDraw p f) := by
  have hshift : ∀ n, nextPrimDraw p f + primDraws (rest.take n) = p + primDraws (((c, f) :: rest).take (n + 1)) :=
    fun n => nextPrimDraw_add_primDraws p c f (rest.take n)
  constructor
  · intro h
    refine ⟨h 0 c f rfl, fun n c' f' hn => ?_⟩
    rw [hshift, Nat.add_right_comm]
    exact h (n + 1) c' f' hn
  · rintro ⟨hfirst, hrest⟩ n c' f' hn
    cases n with
    | zero => cases hn; exact hfirst
    | succ n =>
      have hpass := hrest n c' f' hn
      rwa [hshift, Nat.add_right_comm] at hpass

/-- The classes before number `n` of a list pass, said class by class of the list itself. -/
theorem allPass_take {s : State} {cases : List (KeyClass × KnownAnswer)} {n : Nat}
    (h : ∀ (m : Nat) (c : KeyClass) (f : KnownAnswer), m < n → cases[m]? = some (c, f) →
      Passes s m (primDraws (cases.take m)) c f) : AllPass s (cases.take n) 0 0 := by
  intro m c f hm
  rw [List.getElem?_take, Option.ite_none_right_eq_some] at hm
  obtain ⟨hlt, hm⟩ := hm
  rw [Nat.zero_add, Nat.zero_add, List.take_take, min_eq_left hlt.le]
  exact h m c f hlt hm

/-- A self-test over a list of classes gets to its end exactly where all of them pass. -/
theorem testClasses_ok_iff {s : State} {cases : List (KeyClass × KnownAnswer)} {r : TestRun} :
    (∃ x, testClasses s cases r = .ok x) ↔ AllPass s cases r.a r.p := by
  induction cases generalizing r with
  | nil => exact iff_of_true ⟨r, rfl⟩ (allPass_nil s r.a r.p)
  | cons x rest ih =>
    obtain ⟨c, f⟩ := x
    rw [allPass_cons]
    cases htest : testClass s c f r with
    | error st =>
      refine iff_of_false ?_ ?_
      · simp [testClasses, htest]
      · rintro ⟨hpass, -⟩
        cases htest.symm.trans (testClass_of_passes hpass)
    | ok r' =>
      obtain ⟨hpass, rfl⟩ := testClass_eq_ok htest
      simp only [testClasses, htest, ih, hpass, true_and]

/-- The first class that does not pass gives the status, with the draws numbered over the classes before it. A class's
test does not read the registers it starts from, so what fails does so from any. -/
theorem testClasses_of_first_failure {s : State} {cases : List (KeyClass × KnownAnswer)} {n : Nat} {c : KeyClass}
    {f : KnownAnswer} {r : TestRun} {st : Status} (hn : cases[n]? = some (c, f))
    (hbefore : AllPass s (cases.take n) r.a r.p)
    (hfail : ∀ e, testClass s c f ⟨e, r.a + n, r.p + primDraws (cases.take n)⟩ = .error st) :
    testClasses s cases r = .error st := by
  induction cases generalizing n r with
  | nil => simp at hn
  | cons x rest ih =>
    obtain ⟨c', f'⟩ := x
    cases n with
    | zero =>
      cases hn
      have htest : testClass s c f r = .error st := hfail r.eng
      simp only [testClasses, htest]
    | succ n =>
      obtain ⟨hpass, hrest⟩ := allPass_cons.mp hbefore
      simp only [testClasses, testClass_of_passes hpass]
      refine ih hn hrest fun e => ?_
      rw [nextPrimDraw_add_primDraws r.p c', Nat.add_right_comm]
      exact hfail e

/-! ## SELF_TEST's status (43_lifecycle_selftest.md R171, 60_exceptions.md R205) -/

theorem selfTestOn_resp_of_error {s : State} {cases : List (KeyClass × KnownAnswer)} {st : Status}
    (h : testClasses s cases ⟨s.eng, 0, 0⟩ = .error st) : (selfTestOn cases s).resp = some ⟨st, []⟩ := by
  simp [selfTestOn, h]

theorem selfTestOn_ok_iff {s : State} {cases : List (KeyClass × KnownAnswer)} :
    (selfTestOn cases s).resp = some ⟨.ok, []⟩ ↔ AllPass s cases 0 0 := by
  rw [← testClasses_ok_iff (r := ⟨s.eng, 0, 0⟩)]
  cases hrun : testClasses s cases ⟨s.eng, 0, 0⟩ with
  | error st =>
    have hst := (testClasses_error_ofSelfTest hrun).1
    simp [selfTestOn_resp_of_error hrun, hst]
  | ok r => simp [selfTestOn, hrun]

/-- Settles O35: SELF_TEST is the self-test over its classes, and that is OK exactly where all pass. -/
theorem selfTestOkExactlyWhenEveryClassPasses : Obligations.SelfTestOkExactlyWhenEveryClassPasses := by
  intro s t hl ht
  rw [exec_selfTest_of_unalloc hl] at ht
  cases ht
  simp only [selfTestOn_ok_iff, AllPass, Nat.zero_add]

/-- Settles O37: by `testClasses_of_first_failure`, with the equation of the step that fails. -/
theorem selfTestReportsFirstFailure : Obligations.SelfTestReportsFirstFailure := by
  refine ⟨fun s hl => exec_selfTest_of_unalloc hl, ?_⟩
  rintro s cases n p c f hn rfl hpass
  have hbefore := allPass_take hpass
  have hstatus : ∀ st, (∀ e, testClass s c f ⟨e, n, primDraws (cases.take n)⟩ = .error st) →
      (selfTestOn cases s).resp = some ⟨st, []⟩ := fun st hfail =>
    selfTestOn_resp_of_error (testClasses_of_first_failure hn hbefore (by simpa only [Nat.zero_add] using hfail))
  refine ⟨fun hf => hstatus _ fun e => testClass_of_malformed (malformed_eq_true_iff.mpr hf), ?_⟩
  intro hkey hnonce hct
  have hf := malformed_eq_false_iff.mpr ⟨hkey, hnonce, hct⟩
  refine ⟨fun ha => hstatus _ fun e => testClass_of_alloc_false hf ha,
    fun ha hp => hstatus _ fun e => testClass_of_init_false hf ha hp,
    fun ha hp hpt hq => hstatus _ fun e => testClass_of_update_false hf ha hp hpt hq, ?_⟩
  rintro ha hp hq ⟨j, b, hb, hne⟩
  refine hstatus _ fun e => ?_
  rw [testClass_of_draws_true hf ha hp hq, if_neg fun hout => hne ((xorStream_eq_iff.mp hout).2 j b hb)]

/-! ## The lifecycle table (43_lifecycle_selftest.md R170) -/

section Table
variable (lc : Lifecycle)

@[simp] theorem lcAfterOk_alloc (klen tlen : Nat) :
    lcAfterOk lc (.alloc klen tlen) = if lc = .unalloc then some .alloc else none := by cases lc <;> rfl

@[simp] theorem lcAfterOk_init : lcAfterOk lc .init = if lc = .unalloc then none else some .init := by
  cases lc <;> rfl

@[simp] theorem lcAfterOk_setIv (dir : Direction) :
    lcAfterOk lc (.setIv dir) = if lc = .init ∨ lc = .ivset ∨ lc = .processed then some .ivset else none := by
  cases lc <;> rfl

@[simp] theorem lcAfterOk_process (dir : Direction) :
    lcAfterOk lc (.process dir) = if lc = .ivset ∨ lc = .processed then some .processed else none := by
  cases lc <;> rfl

@[simp] theorem lcAfterOk_selfTest : lcAfterOk lc .selfTest = if lc = .unalloc then some .unalloc else none := by
  cases lc <;> rfl

@[simp] theorem lcAfterOk_dealloc : lcAfterOk lc .dealloc = some .unalloc := by cases lc <;> rfl

@[simp] theorem lcAfterOk_getDesc : lcAfterOk lc .getDesc = some lc := by cases lc <;> rfl

end Table

/-- The answers that the table and its outcome rules leave to a command. -/
inductive TableOutcome (i : Instr) (s : State) : State → Prop where
  | refused (h : lcAfterOk s.eng.lc i = none) : TableOutcome i s (s.fail .invalidState)
  | ok (e : Engine) (rd : List Byte) (h : lcAfterOk s.eng.lc i = some e.lc) : TableOutcome i s (s.answer e .ok rd)
  | kept (st : Status) (h : lcAfterOk s.eng.lc i ≠ none) (hi : i ≠ .selfTest)
      (hst : st = .invalidParameter ∨ st = .allocationFailure) : TableOutcome i s (s.fail st)
  | cipherFailed (e : Engine) (h : lcAfterOk s.eng.lc i ≠ none) (hi : i ≠ .selfTest) (he : e.lc = .init) :
      TableOutcome i s (s.answer e .cipherFailure [])
  | tested (st : Status) (hl : s.eng.lc = .unalloc) (hi : i = .selfTest) (hst : st.OfSelfTest) :
      TableOutcome i s (s.answer Engine.reset st [])

theorem exec_tableOutcome {i : Instr} {s t : State} (h : exec i s = .next t) : TableOutcome i s t := by
  cases i with
  | alloc klen tlen =>
    obtain ⟨hl, rfl⟩ | ⟨hl, -, rfl⟩ | ⟨_, hl, -, -, rfl⟩ | ⟨c, hl, -, -, rfl⟩ := execAlloc_cases h
    · exact .refused (by simp [hl])
    · exact .kept _ (by simp [hl]) nofun (.inl rfl)
    · exact .kept _ (by simp [hl]) nofun (.inr rfl)
    · exact .ok _ _ (by simp [hl, Engine.bindClass_eq])
  | init =>
    obtain ⟨hl, rfl⟩ | ⟨hl, -, rfl⟩ | ⟨hl, -, rfl⟩ := execInit_cases h
    · exact .refused (by simp [hl])
    · exact .kept _ (by simp [hl]) nofun (.inl rfl)
    · exact .ok _ _ (by simp [hl])
  | setIv dir =>
    obtain ⟨hl, rfl⟩ | ⟨hl, -, rfl⟩ | ⟨hl, -, -, rfl⟩ | ⟨hl, -, -, rfl⟩ := execSetIv_cases h
    · exact .refused (by obtain hl | hl := hl <;> simp [hl])
    · exact .kept _ (by simp [hl]) nofun (.inl rfl)
    · exact .ok _ _ (by simp [hl])
    · exact .cipherFailed _ (by simp [hl]) nofun rfl
  | process dir =>
    obtain ⟨hl, rfl⟩ | ⟨hl, -, rfl⟩ | ⟨hl, -, rfl⟩ | ⟨hl, -, -, -, rfl⟩ | ⟨hl, -, -, -, rfl⟩ := execProcess_cases h
    · exact .refused (by obtain hl | hl | hl := hl <;> simp [hl])
    · exact .kept _ (by simp [hl]) nofun (.inl rfl)
    · exact .ok _ _ (by simp [hl])
    · exact .ok _ _ (by simp [hl])
    · exact .cipherFailed _ (by simp [hl]) nofun rfl
  | dealloc =>
    rw [execDealloc_cases h]
    exact .ok _ _ (lcAfterOk_dealloc _)
  | getDesc =>
    rw [execGetDesc_cases h]
    exact .ok _ _ (lcAfterOk_getDesc _)
  | selfTest =>
    by_cases hl : s.eng.lc = .unalloc
    · obtain ⟨st, hst, rfl⟩ := execSelfTest_eq_answer hl h
      exact .tested st hl rfl hst
    · rw [exec_selfTest_of_allocated hl] at h
      cases h
      exact .refused (by simp [hl])

/-- A command that decodes is never answered ILLEGAL_COMMAND. -/
theorem exec_status_ne_illegalCommand {i : Instr} {s t : State} {r : Response} (h : exec i s = .next t)
    (hr : t.resp = some r) : r.status ≠ .illegalCommand := by
  cases exec_tableOutcome h with
  | refused => cases hr; nofun
  | ok => cases hr; nofun
  | kept st _ _ hst => cases hr; obtain rfl | rfl := hst <;> nofun
  | cipherFailed => cases hr; nofun
  | tested st _ _ hst => cases hr; exact hst.2

/-- Settles O41: the table by the five kinds of answers it leaves, and only an ILLEGAL word is answered
ILLEGAL_COMMAND, with the registers kept. -/
theorem lifecycleTable : Obligations.LifecycleTable := by
  constructor
  · intro i s t r h hr
    cases exec_tableOutcome h with
    | refused hnone => cases hr; simp [hnone, State.fail]
    | ok e rd hsome =>
      cases hr
      have htested : i = .selfTest → e.lc = .unalloc := by
        rintro rfl
        rw [lcAfterOk_selfTest, Option.ite_none_right_eq_some] at hsome
        exact (Option.some.inj hsome.2).symm
      simpa [hsome] using htested
    | kept st hlegal hi hst => cases hr; obtain rfl | rfl := hst <;> simp [hlegal, hi]
    | cipherFailed e hlegal hi he => cases hr; simp [hlegal, he, hi]
    | tested st hl hi hst =>
      cases hr
      obtain ⟨hstate, -⟩ := hst
      simp [hl, hi, hstate, Engine.reset]
  · intro s t c rest r hin ht hr hst
    cases hdec : decode c.cmd with
    | error why =>
      rw [step_of_decode_error hin hdec] at ht
      cases ht
      rfl
    | ok i =>
      obtain ⟨u, hexec, hstep⟩ := stepRunsDecodedInstruction s c rest i hin hdec
      rw [hstep] at ht
      cases ht
      exact absurd hst (exec_status_ne_illegalCommand hexec hr)

end Sys2Proof.Machine

/-! # Proofs of the statements of 60_exceptions.md: every command answers, the causes of the statuses, what an error
writes, and which error comes first -/

namespace Sys2Proof.Machine

/-! ## The step at a command (60_exceptions.md R200) -/

/-- A step at a command answers an ILLEGAL word or runs the decoded instruction, and retires the answer. -/
theorem step_command_cases {s t : State} {c : Command} {rest : List PortEvent} (hin : s.inbox = .command c :: rest)
    (ht : step s = .next t) :
    (∃ why, decode c.cmd = .error why ∧ t = ((s.takeCommand c rest).fail .illegalCommand).retire) ∨
    (∃ i u, decode c.cmd = .ok i ∧ exec i (s.takeCommand c rest) = .next u ∧ t = u.retire) := by
  cases hdec : decode c.cmd with
  | error why =>
    rw [step_of_decode_error hin hdec] at ht
    cases ht
    exact .inl ⟨why, rfl, rfl⟩
  | ok i =>
    obtain ⟨u, hexec, hstep⟩ := stepRunsDecodedInstruction s c rest i hin hdec
    rw [hstep] at ht
    cases ht
    exact .inr ⟨i, u, rfl, hexec, rfl⟩

theorem step_of_idle {s : State} (hin : s.inbox = []) : step s = .next s := by
  simp only [step, hin]

theorem step_of_reset {s : State} {rest : List PortEvent} (hin : s.inbox = .reset :: rest) :
    step s = .next (s.takeReset rest) := by
  simp only [step, hin]

/-- The step at a command answers it and takes it, and nothing else, from the port. -/
theorem step_command_answers {s : State} {c : Command} {rest : List PortEvent} (hin : s.inbox = .command c :: rest) :
    ∃ t r, step s = .next t ∧ t.resp = some r ∧ t.inbox = rest := by
  obtain ⟨e, st, rd, hrun, -⟩ := runWord_answers_alike c.cmd (SameInputs.refl (s.takeCommand c rest))
  exact ⟨_, ⟨st, rd⟩, by rw [step_command hin, hrun]; rfl, rfl, rfl⟩

/-- Settles O40: `step_command_answers` at a command, the two other kinds of port by their equations, and
`exec_eq_answer` for the fields an instruction leaves. -/
theorem everyCommandCompletesAndAnswers : Obligations.EveryCommandCompletesAndAnswers := by
  refine ⟨fun _ _ _ => step_command_answers, fun _ => step_of_idle, fun s => ?_, fun i s => ?_⟩
  · cases hin : s.inbox with
    | nil => exact ⟨s, step_of_idle hin⟩
    | cons ev rest =>
      cases ev with
      | command c =>
        obtain ⟨t, _, ht, -⟩ := step_command_answers hin
        exact ⟨t, ht⟩
      | reset => exact ⟨_, step_of_reset hin⟩
  · obtain ⟨e, st, rd, hexec⟩ := exec_eq_answer i s
    exact ⟨_, ⟨st, rd⟩, hexec, rfl, rfl, rfl, rfl, rfl⟩

/-! ## The causes of the statuses (60_exceptions.md R201) -/

/-- The table of R201, a constructor for each pairing of a status with a cause; `ok` needs none. -/
inductive StatusCause : Instr → State → Status → Prop where
  | ok {i : Instr} {s : State} : StatusCause i s .ok
  | allocLength {klen tlen : Nat} {s : State} (h : classOf Config.aes192Enabled klen = none) :
      StatusCause (.alloc klen tlen) s .invalidParameter
  | initLength {s : State} (h : ∀ c, s.eng.kclass = some c → s.data.length < totalLen c) :
      StatusCause .init s .invalidParameter
  | setIvLength {dir : Direction} {s : State} (h : s.data.length < 16) : StatusCause (.setIv dir) s .invalidParameter
  | processLength {dir : Direction} {s : State} (h : Config.maxDataLen < s.data.length) :
      StatusCause (.process dir) s .invalidParameter
  | testFixture {f : KnownAnswer} {s : State} (henabled : Config.aes192Enabled = true)
      (hkat : Config.kat192 = some f) (h : malformed .aes192 f = true) : StatusCause .selfTest s .invalidParameter
  | allocDraw {klen tlen : Nat} {s : State} (h : s.allocOk 0 = false) :
      StatusCause (.alloc klen tlen) s .allocationFailure
  | testAllocDraw {n : Nat} {s : State} (hn : n < 3) (h : s.allocOk n = false) :
      StatusCause .selfTest s .allocationFailure
  | setIvDraw {dir : Direction} {s : State} (h : s.primOk 0 = false) : StatusCause (.setIv dir) s .cipherFailure
  | processDraw {dir : Direction} {s : State} (h : s.primOk 0 = false) : StatusCause (.process dir) s .cipherFailure
  | testPrimDraw {n : Nat} {s : State} (hn : n < 6) (h : s.primOk n = false) : StatusCause .selfTest s .cipherFailure
  | testOutput {c : KeyClass} {f : KnownAnswer} {j : Nat} {b : Byte} {s : State}
      (hcase : (c, f) ∈ selfTestCases Config.aes192Enabled Config.kat192) (hb : f.pt[j]? = some b)
      (h : f.ct[j]? ≠ some (b ^^^ ksByte Config.ctrIncWidth (fixturePrimitive c f) j)) :
      StatusCause .selfTest s .selfTestFailure
  | lifecycle {i : Instr} {s : State} (h : lcAfterOk s.eng.lc i = none) : StatusCause i s .invalidState

theorem selfTestCases_length_le (enabled : Bool) (kat192 : Option KnownAnswer) :
    (selfTestCases enabled kat192).length ≤ 3 := by
  unfold selfTestCases
  split <;> simp

/-- The fixed fixtures are well formed, so a malformed one is the parameter `KAT_192`. -/
theorem eq_kat192_of_malformed {enabled : Bool} {kat192 : Option KnownAnswer} {c : KeyClass} {f : KnownAnswer}
    (hcase : (c, f) ∈ selfTestCases enabled kat192) (hf : malformed c f = true) :
    c = .aes192 ∧ enabled = true ∧ kat192 = some f := by
  have hother : ∀ c' f', malformed c' f' = false → (c, f) ≠ (c', f') := by
    rintro _ _ hwell ⟨⟩
    exact Bool.false_ne_true (hwell.symm.trans hf)
  unfold selfTestCases at hcase
  split at hcase <;>
    simp only [List.cons_append, List.nil_append, List.mem_cons, List.not_mem_nil, or_false,
      hother _ _ malformed_kat128, hother _ _ malformed_kat256, false_or] at hcase
  cases hcase
  exact ⟨rfl, rfl, rfl⟩

/-- A class takes two primitive draws at most: SET_IV's and PROCESS's. -/
theorem primDraws_le (cases : List (KeyClass × KnownAnswer)) : primDraws cases ≤ 2 * cases.length := by
  induction cases with
  | nil => exact le_rfl
  | cons x rest ih =>
    simp only [primDraws, List.length_cons]
    split_ifs <;> omega

/-- Where a list of classes ends in an error, one of its classes does, with the draws numbered over the classes before
it. -/
theorem exists_testClass_error {s : State} {cases : List (KeyClass × KnownAnswer)} {r : TestRun} {st : Status}
    (h : testClasses s cases r = .error st) :
    ∃ n c f e, cases[n]? = some (c, f) ∧
      testClass s c f ⟨e, r.a + n, r.p + primDraws (cases.take n)⟩ = .error st := by
  induction cases generalizing r with
  | nil => cases h
  | cons x rest ih =>
    obtain ⟨c, f⟩ := x
    cases htest : testClass s c f r with
    | error st' =>
      simp only [testClasses, htest] at h
      cases h
      exact ⟨0, c, f, r.eng, rfl, htest⟩
    | ok r' =>
      obtain ⟨-, rfl⟩ := testClass_eq_ok htest
      simp only [testClasses, htest] at h
      obtain ⟨n, c', f', e, hn, hfail⟩ := ih h
      refine ⟨n + 1, c', f', e, hn, ?_⟩
      rwa [nextPrimDraw_add_primDraws r.p c, Nat.add_right_comm] at hfail

theorem exists_byte_ne_of_xorStream_ne {ks : Nat → Byte} {buf out : List Byte} (hlen : out.length = buf.length)
    (hne : xorStream ks buf ≠ out) : ∃ (j : Nat) (b : Byte), buf[j]? = some b ∧ out[j]? ≠ some (b ^^^ ks j) := by
  by_contra! hbytes
  exact hne (xorStream_eq_iff.mpr ⟨hlen, hbytes⟩)

/-- One class of SELF_TEST fails for a cause of the table. -/
theorem testClass_statusCause {s : State} {c : KeyClass} {f : KnownAnswer} {r : TestRun} {st : Status}
    (hcase : (c, f) ∈ selfTestCases Config.aes192Enabled Config.kat192) (ha : r.a < 3) (hp : r.p + 1 < 6)
    (h : testClass s c f r = .error st) : StatusCause .selfTest s st := by
  obtain ⟨hf, e⟩ | ⟨-, hdraw, e⟩ | ⟨-, -, hdraw, e⟩ | ⟨-, -, -, -, hdraw, e⟩ | ⟨hf, -, -, -, hout, e⟩ |
    ⟨-, -, -, -, -, e⟩ := testClass_cases h <;> cases e
  · obtain ⟨rfl, henabled, hkat⟩ := eq_kat192_of_malformed hcase hf
    exact .testFixture henabled hkat hf
  · exact .testAllocDraw ha hdraw
  · exact .testPrimDraw (Nat.lt_of_succ_lt hp) hdraw
  · exact .testPrimDraw hp hdraw
  · obtain ⟨-, -, hlen⟩ := malformed_eq_false_iff.mp hf
    obtain ⟨j, b, hb, hne⟩ := exists_byte_ne_of_xorStream_ne hlen.symm hout
    exact .testOutput hcase hb hne

/-- SELF_TEST runs three classes at most, so it consults three allocation draws and six primitive draws at most. -/
theorem testClasses_statusCause {s : State} {st : Status}
    (h : testClasses s (selfTestCases Config.aes192Enabled Config.kat192) ⟨s.eng, 0, 0⟩ = .error st) :
    StatusCause .selfTest s st := by
  obtain ⟨n, c, f, e, hn, hfail⟩ := exists_testClass_error h
  have hlt : n < 3 := (List.getElem?_eq_some_iff.mp hn).1.trans_le (selfTestCases_length_le _ _)
  have hdraws : primDraws ((selfTestCases Config.aes192Enabled Config.kat192).take n) ≤ 2 * n :=
    (primDraws_le _).trans (Nat.mul_le_mul_left 2 (List.length_take_le _ _))
  refine testClass_statusCause (List.mem_of_getElem? hn) ?_ ?_ hfail
  · simpa only [Nat.zero_add] using hlt
  · dsimp only
    omega

theorem exec_statusCause {i : Instr} {s t : State} {r : Response} (h : exec i s = .next t) (hr : t.resp = some r) :
    StatusCause i s r.status := by
  cases i with
  | alloc klen tlen =>
    obtain ⟨hl, rfl⟩ | ⟨-, hc, rfl⟩ | ⟨_, -, -, hdraw, rfl⟩ | ⟨_, -, -, -, rfl⟩ := execAlloc_cases h <;> cases hr
    · exact .lifecycle (by simp [hl])
    · exact .allocLength hc
    · exact .allocDraw hdraw
    · exact .ok
  | init =>
    obtain ⟨hl, rfl⟩ | ⟨-, hd, rfl⟩ | ⟨-, -, rfl⟩ := execInit_cases h <;> cases hr
    · exact .lifecycle (by simp [hl])
    · refine .initLength fun c hc => ?_
      rwa [hc, keyLenOf_some, ← totalLen_eq] at hd
    · exact .ok
  | setIv dir =>
    obtain ⟨hl, rfl⟩ | ⟨-, hd, rfl⟩ | ⟨-, -, -, rfl⟩ | ⟨-, -, hdraw, rfl⟩ := execSetIv_cases h <;> cases hr
    · exact .lifecycle (by obtain hl | hl := hl <;> simp [hl])
    · exact .setIvLength hd
    · exact .ok
    · exact .setIvDraw hdraw
  | process dir =>
    obtain ⟨hl, rfl⟩ | ⟨-, hd, rfl⟩ | ⟨-, -, rfl⟩ | ⟨-, -, -, -, rfl⟩ | ⟨-, -, -, hdraw, rfl⟩ :=
      execProcess_cases h <;> cases hr
    · exact .lifecycle (by obtain hl | hl | hl := hl <;> simp [hl])
    · exact .processLength hd
    · exact .ok
    · exact .ok
    · exact .processDraw hdraw
  | dealloc => rw [execDealloc_cases h] at hr; cases hr; exact .ok
  | getDesc => rw [execGetDesc_cases h] at hr; cases hr; exact .ok
  | selfTest =>
    obtain ⟨hl, rfl⟩ | ⟨st, -, herror, rfl⟩ | ⟨_, -, -, rfl⟩ := execSelfTest_cases h <;> cases hr
    · exact .lifecycle (by simp [hl])
    · exact testClasses_statusCause herror
    · exact .ok

/-- A step answers ILLEGAL_COMMAND at the ILLEGAL words and at no other. -/
theorem step_illegalCommand_iff {s t : State} {c : Command} {rest : List PortEvent} {r : Response}
    (hin : s.inbox = .command c :: rest) (ht : step s = .next t) (hr : t.resp = some r) :
    r.status = .illegalCommand ↔ ∃ why, decode c.cmd = .error why := by
  obtain ⟨why, hdec, rfl⟩ | ⟨i, u, hdec, hexec, rfl⟩ := step_command_cases hin ht
  · cases hr
    exact iff_of_true rfl ⟨why, hdec⟩
  · exact iff_of_false (exec_status_ne_illegalCommand hexec hr) (by simp [hdec])

/-- Settles O42: each status by the constructors of `StatusCause` that have it. -/
theorem statusCauses : Obligations.StatusCauses := by
  constructor
  · intro i s t r h hr
    have hcause := exec_statusCause h hr
    refine ⟨fun hst => ?_, fun hst => ?_, fun hst => ?_, fun hst => ?_, fun hst => ?_,
      exec_status_ne_illegalCommand h hr⟩ <;> rw [hst] at hcause
    · cases hcause with
      | allocLength hc => exact .inl ⟨_, _, rfl, hc⟩
      | initLength hd => exact .inr (.inl ⟨rfl, hd⟩)
      | setIvLength hd => exact .inr (.inr (.inl ⟨_, rfl, hd⟩))
      | processLength hd => exact .inr (.inr (.inr (.inl ⟨_, rfl, hd⟩)))
      | testFixture henabled hkat hf => exact .inr (.inr (.inr (.inr ⟨rfl, henabled, _, hkat, hf⟩)))
    · cases hcause with
      | allocDraw hdraw => exact .inl ⟨_, _, rfl, hdraw⟩
      | testAllocDraw hn hdraw => exact .inr ⟨rfl, _, hn, hdraw⟩
    · cases hcause with
      | setIvDraw hdraw => exact .inl ⟨_, rfl, hdraw⟩
      | processDraw hdraw => exact .inr (.inl ⟨_, rfl, hdraw⟩)
      | testPrimDraw hn hdraw => exact .inr (.inr ⟨rfl, _, hn, hdraw⟩)
    · cases hcause with
      | testOutput hcase hb hne => exact ⟨rfl, _, _, hcase, _, _, hb, hne⟩
    · cases hcause with
      | lifecycle hnone => exact ⟨by rintro rfl; simp at hnone, by rintro rfl; simp at hnone, hnone⟩
  · intro s t c rest r hin ht hr
    obtain ⟨herror, -⟩ := onlyProcessAndGetDescReturnData s t c rest r hin ht hr
    exact ⟨step_illegalCommand_iff hin ht hr, herror⟩

/-! ## What an error writes (60_exceptions.md R202) -/

section ErrorWrites
variable {i : Instr} {dir : Direction} {s t : State} {r : Response}

theorem exec_eng_of_invalidState (h : exec i s = .next t) (hr : t.resp = some r) (hst : r.status = .invalidState) :
    t.eng = s.eng := by
  obtain ⟨htable, -⟩ := lifecycleTable
  obtain ⟨-, hrefused, -⟩ := htable i s t r h hr
  rw [hrefused hst]

/-- Outside SELF_TEST, a bad operand and a failed allocation are answered over the registers as they were. -/
theorem exec_eng_of_kept (hi : i ≠ .selfTest) (h : exec i s = .next t) (hr : t.resp = some r)
    (hst : r.status = .invalidParameter ∨ r.status = .allocationFailure) : t.eng = s.eng := by
  cases exec_tableOutcome h with
  | refused | kept => rfl
  | ok | cipherFailed => cases hr; simp at hst
  | tested _ _ hself => exact absurd hself hi

theorem execSetIv_eng_of_cipherFailure (h : exec (.setIv dir) s = .next t) (hr : t.resp = some r)
    (hst : r.status = .cipherFailure) : t.eng = (s.eng.derive (nonceOf s.data)).cipherFailed := by
  obtain ⟨-, rfl⟩ | ⟨-, -, rfl⟩ | ⟨-, -, -, rfl⟩ | ⟨-, -, -, rfl⟩ := execSetIv_cases h <;> cases hr <;> cases hst
  rfl

theorem execProcess_eng_of_cipherFailure (h : exec (.process dir) s = .next t) (hr : t.resp = some r)
    (hst : r.status = .cipherFailure) : t.eng = s.eng.cipherFailed := by
  obtain ⟨-, rfl⟩ | ⟨-, -, rfl⟩ | ⟨-, -, rfl⟩ | ⟨-, -, -, -, rfl⟩ | ⟨-, -, -, -, rfl⟩ := execProcess_cases h <;>
    cases hr <;> cases hst
  rfl

theorem execSelfTest_eng_of_ne_invalidState (h : exec .selfTest s = .next t) (hr : t.resp = some r)
    (hst : r.status ≠ .invalidState) : t.eng = Engine.reset := by
  by_cases hl : s.eng.lc = .unalloc
  · exact execSelfTest_eng_of_unalloc hl h
  · rw [exec_selfTest_of_allocated hl] at h
    cases h
    cases hr
    exact absurd rfl hst

end ErrorWrites

/-- Settles O45: an ILLEGAL word is answered over the registers as they were, and a decoded instruction writes what the
lemma for its status says; the data is O44's. -/
theorem errorsWriteNoRegister : Obligations.ErrorsWriteNoRegister := by
  intro s t c rest r hin ht hr
  obtain ⟨hdata, -⟩ := onlyProcessAndGetDescReturnData s t c rest r hin ht hr
  obtain ⟨why, hdec, rfl⟩ | ⟨i, u, hdec, hexec, rfl⟩ := step_command_cases hin ht
  · rw [hdec]
    exact ⟨fun _ => rfl, fun _ _ => rfl, nofun, nofun, nofun, hdata⟩
  · rw [hdec]
    refine ⟨?_, fun hst hi => ?_, ?_, ?_, ?_, hdata⟩
    · rintro (hst | hst)
      · exact absurd hst (exec_status_ne_illegalCommand hexec hr)
      · exact (exec_eng_of_invalidState hexec hr hst :)
    · exact (exec_eng_of_kept (fun hself => hi (congrArg _ hself)) hexec hr hst :)
    · rintro dir ⟨⟩ hst
      exact (execSetIv_eng_of_cipherFailure hexec hr hst :)
    · rintro dir ⟨⟩ hst
      exact (execProcess_eng_of_cipherFailure hexec hr hst :)
    · rintro ⟨⟩ hst
      exact (execSelfTest_eng_of_ne_invalidState hexec hr hst :)

/-! ## Which error comes first (60_exceptions.md R205) -/

section Priority
variable {s t : State} {c : Command} {rest : List PortEvent} {r : Response} {i : Instr}

theorem step_status_of_illegal_in_lc (hin : s.inbox = .command c :: rest) (ht : step s = .next t)
    (hr : t.resp = some r) (hdec : decode c.cmd = .ok i) (hnone : lcAfterOk s.eng.lc i = none) :
    r.status = .invalidState := by
  obtain ⟨u, hexec, hstep⟩ := stepRunsDecodedInstruction s c rest i hin hdec
  rw [hstep] at ht
  cases ht
  obtain ⟨htable, -⟩ := lifecycleTable
  obtain ⟨hiff, -⟩ := htable i _ u r hexec hr
  exact hiff.mp hnone

theorem step_status_of_exec_fail {st : Status} (hin : s.inbox = .command c :: rest) (ht : step s = .next t)
    (hr : t.resp = some r) (hdec : decode c.cmd = .ok i)
    (hexec : exec i (s.takeCommand c rest) = .next ((s.takeCommand c rest).fail st)) : r.status = st := by
  rw [step_of_decode_ok hin hdec, hexec] at ht
  cases ht
  cases hr
  rfl

end Priority

/-- Settles O46: an ILLEGAL word by O42, the lifecycle by O41's table, and each bad operand by its command's equation,
whose hypotheses name no draw. -/
theorem errorPriority : Obligations.ErrorPriority := by
  intro s t c rest r hin ht hr
  refine ⟨fun why hdec => (step_illegalCommand_iff hin ht hr).mpr ⟨why, hdec⟩,
    fun i => step_status_of_illegal_in_lc hin ht hr, ?_, ?_, ?_, ?_⟩
  · intro klen tlen hdec hlegal hclass
    have hl : s.eng.lc = .unalloc := by simpa using hlegal
    exact step_status_of_exec_fail hin ht hr hdec (exec_alloc_of_no_class tlen hl hclass)
  · intro k hdec hlegal hk hd
    have hl : s.eng.lc ≠ .unalloc := by simpa using hlegal
    exact step_status_of_exec_fail hin ht hr hdec (exec_init_of_short hl hk hd)
  · intro dir hdec hlegal hd
    have hl : s.eng.lc = .init ∨ s.eng.lc = .ivset ∨ s.eng.lc = .processed :=
      by_contra fun hno => hlegal ((lcAfterOk_setIv _ dir).trans (if_neg hno))
    exact step_status_of_exec_fail hin ht hr hdec (exec_setIv_of_short dir hl hd)
  · intro dir hdec hlegal hd
    have hl : s.eng.lc = .ivset ∨ s.eng.lc = .processed :=
      by_contra fun hno => hlegal ((lcAfterOk_process _ dir).trans (if_neg hno))
    exact step_status_of_exec_fail hin ht hr hdec (exec_process_of_long dir hl hd)

end Sys2Proof.Machine

/-! # Proofs of the statements of 70_reset_and_hazards.md: the reset event, and the order of commands behind a PROCESS -/

namespace Sys2Proof.Machine

/-! ## The reset event (70_reset_and_hazards.md R230) -/

/-- Settles O10: `step_of_reset`, and the fields of `Engine.reset`. -/
theorem resetEventZeroesEveryRegister : Obligations.ResetEventZeroesEveryRegister := fun _ _ hin =>
  ⟨_, step_of_reset hin, rfl, rfl, rfl, rfl, rfl, rfl, rfl, rfl, rfl, rfl, rfl, rfl⟩

/-! ## What the statuses of a history entry say -/

section Entry
variable {c : Command} {i : Instr} {r : Response} {p : Instr → Bool} {st : Status}

theorem answered_iff (hdec : decode c.cmd = .ok i) :
    Answered p st (.command c, some r) ↔ p i = true ∧ r.status = st := by
  constructor
  · rintro ⟨_, j, _, ⟨⟩, hj, hp, ⟨⟩, hst⟩
    cases hdec.symm.trans hj
    exact ⟨hp, hst⟩
  · rintro ⟨hp, hst⟩
    exact ⟨c, i, r, rfl, hdec, hp, rfl, hst⟩

theorem endsContext_iff (hdec : decode c.cmd = .ok i) :
    EndsContext (.command c, some r) ↔ i = .dealloc ∧ r.status = .ok := by
  simp [EndsContext, answered_iff hdec]

theorem endsSeeding_iff (hdec : decode c.cmd = .ok i) :
    EndsSeeding (.command c, some r) ↔
      (i = .init ∨ i = .dealloc) ∧ r.status = .ok ∨ r.status = .cipherFailure := by
  simp [EndsSeeding, answered_iff hdec]

/-- An ILLEGAL word is no instruction, so it ends nothing. -/
theorem not_endsSeeding_of_decode_error {resp : Option Response} {why : Illegal} (hdec : decode c.cmd = .error why) :
    ¬ EndsSeeding (.command c, resp) := by
  have hnot : ∀ q st, ¬ Answered q st (.command c, resp) := by
    rintro q st ⟨_, j, _, ⟨⟩, hj, -⟩
    cases hdec.symm.trans hj
  rintro (hreset | hok | hfail)
  · cases hreset
  · exact hnot _ _ hok
  · exact hnot _ _ hfail

theorem EndsContext.endsSeeding {x : PortEvent × Option Response} (h : EndsContext x) : EndsSeeding x := by
  obtain hreset | ⟨c, i, r, hx, hdec, hi, hr, hst⟩ := h
  · exact .inl hreset
  · exact .inr (.inl ⟨c, i, r, hx, hdec, by simpa using .inr (of_decide_eq_true hi), hr, hst⟩)

end Entry

/-! ## What one entry of a run does to `LC` (43_lifecycle_selftest.md R170) -/

/-- The moves of `LC` that a history entry can stand for. -/
inductive EntryMove (lc : Lifecycle) (x : PortEvent × Option Response) : Lifecycle → Prop where
  | zeroized : EntryMove lc x .unalloc
  | kept (hx : ¬ EndsSeeding x) : EntryMove lc x lc
  | allocated (hx : Answered isAlloc .ok x) : EntryMove lc x .alloc
  | initialized (hl : lc ≠ .unalloc) (hx : Answered (fun j => j = .init) .ok x) (hends : ¬ EndsContext x) :
      EntryMove lc x .init
  | seeded (hl : lc = .init ∨ lc = .ivset ∨ lc = .processed) (hx : Answered isSetIv .ok x)
      (hends : ¬ EndsContext x) : EntryMove lc x .ivset
  | processed (hl : lc = .ivset ∨ lc = .processed) (hx : ¬ EndsSeeding x) : EntryMove lc x .processed
  | cipherFailed (hl : lc = .init ∨ lc = .ivset ∨ lc = .processed) (hends : ¬ EndsContext x) : EntryMove lc x .init

/-- The table's cells, as moves. -/
theorem entryMove_of_ok {c : Command} {i : Instr} {r : Response} {lc lc' : Lifecycle} (hdec : decode c.cmd = .ok i)
    (hok : r.status = .ok) (h : lcAfterOk lc i = some lc') : EntryMove lc (.command c, some r) lc' := by
  cases i with
  | alloc klen tlen =>
    rw [lcAfterOk_alloc, Option.ite_none_right_eq_some, Option.some.injEq] at h
    obtain ⟨-, rfl⟩ := h
    exact .allocated ((answered_iff hdec).mpr ⟨rfl, hok⟩)
  | init =>
    rw [lcAfterOk_init, Option.ite_none_left_eq_some, Option.some.injEq] at h
    obtain ⟨hl, rfl⟩ := h
    exact .initialized hl ((answered_iff hdec).mpr ⟨rfl, hok⟩) (by simp [endsContext_iff hdec])
  | setIv dir =>
    rw [lcAfterOk_setIv, Option.ite_none_right_eq_some, Option.some.injEq] at h
    obtain ⟨hl, rfl⟩ := h
    exact .seeded hl ((answered_iff hdec).mpr ⟨rfl, hok⟩) (by simp [endsContext_iff hdec])
  | process dir =>
    rw [lcAfterOk_process, Option.ite_none_right_eq_some, Option.some.injEq] at h
    obtain ⟨hl, rfl⟩ := h
    exact .processed hl (by simp [endsSeeding_iff hdec, hok])
  | dealloc =>
    rw [lcAfterOk_dealloc, Option.some.injEq] at h
    obtain rfl := h
    exact .zeroized
  | getDesc =>
    rw [lcAfterOk_getDesc, Option.some.injEq] at h
    obtain rfl := h
    exact .kept (by simp [endsSeeding_iff hdec, hok])
  | selfTest =>
    rw [lcAfterOk_selfTest, Option.ite_none_right_eq_some, Option.some.injEq] at h
    obtain ⟨-, rfl⟩ := h
    exact .zeroized

/-- Outside SELF_TEST, CIPHER_FAILURE is answered from INIT, IVSET and PROCESSED only: by O42 the command is a SET_IV or
a PROCESS, and the table admits these there only. -/
theorem keyed_of_cipherFailure {i : Instr} {s t : State} {r : Response} (h : exec i s = .next t)
    (hr : t.resp = some r) (hst : r.status = .cipherFailure) (hi : i ≠ .selfTest)
    (hlegal : lcAfterOk s.eng.lc i ≠ none) :
    s.eng.lc = .init ∨ s.eng.lc = .ivset ∨ s.eng.lc = .processed := by
  obtain ⟨hcauses, -⟩ := statusCauses
  obtain ⟨-, -, hcipher, -⟩ := hcauses i s t r h hr
  obtain ⟨dir, rfl, -⟩ | ⟨dir, rfl, -⟩ | ⟨hself, -⟩ := hcipher hst
  · rw [lcAfterOk_setIv, ite_ne_right_iff] at hlegal
    exact hlegal.1
  · rw [lcAfterOk_process, ite_ne_right_iff] at hlegal
    exact .inr hlegal.1
  · exact absurd hself hi

theorem exec_entryMove {c : Command} {i : Instr} {s t : State} (hdec : decode c.cmd = .ok i)
    (h : exec i s = .next t) : EntryMove s.eng.lc (.command c, t.resp) t.eng.lc := by
  cases exec_tableOutcome h with
  | refused => exact .kept (by simp [endsSeeding_iff hdec])
  | ok e rd hsome => exact entryMove_of_ok hdec rfl hsome
  | kept st _ _ hst => exact .kept (by obtain rfl | rfl := hst <;> simp [endsSeeding_iff hdec])
  | cipherFailed e hlegal hi he =>
    rw [State.answer_eng, he]
    exact .cipherFailed (keyed_of_cipherFailure h rfl rfl hi hlegal) (by simp [endsContext_iff hdec])
  | tested => exact .zeroized

theorem step_entryMove {s t : State} {ev : PortEvent} {rest : List PortEvent} (hin : s.inbox = ev :: rest)
    (ht : step s = .next t) : EntryMove s.eng.lc (ev, t.resp) t.eng.lc := by
  cases ev with
  | reset =>
    rw [step_of_reset hin] at ht
    cases ht
    exact .zeroized
  | command c =>
    obtain ⟨why, hdec, rfl⟩ | ⟨i, u, hdec, hexec, rfl⟩ := step_command_cases hin ht
    · exact .kept (not_endsSeeding_of_decode_error hdec)
    · exact (exec_entryMove hdec hexec :)

section Moves
variable {lc lc' : Lifecycle} {x : PortEvent × Option Response}

/-- A context is there after an entry because the entry is an ALLOC, or because it was there and is not ended. -/
theorem EntryMove.allocated_or (h : EntryMove lc x lc') (hl' : lc' ≠ .unalloc) :
    Answered isAlloc .ok x ∨ lc ≠ .unalloc ∧ ¬ EndsContext x := by
  cases h with
  | zeroized => exact absurd rfl hl'
  | kept hx => exact .inr ⟨hl', mt EndsContext.endsSeeding hx⟩
  | allocated hx => exact .inl hx
  | initialized hl _ hends => exact .inr ⟨hl, hends⟩
  | seeded hl _ hends | cipherFailed hl hends => exact .inr ⟨Lifecycle.ne_unalloc_of_keyed hl, hends⟩
  | processed hl hx => exact .inr ⟨Lifecycle.ne_unalloc_of_keyed (.inr hl), mt EndsContext.endsSeeding hx⟩

/-- A key is there after an entry because the entry is an INIT of a context, or because it was there and is not ended. -/
theorem EntryMove.keyed_or (h : EntryMove lc x lc') (hl' : lc' = .init ∨ lc' = .ivset ∨ lc' = .processed) :
    lc ≠ .unalloc ∧ Answered (fun j => j = .init) .ok x ∨
      (lc = .init ∨ lc = .ivset ∨ lc = .processed) ∧ ¬ EndsContext x := by
  cases h with
  | zeroized | allocated => simp at hl'
  | kept hx => exact .inr ⟨hl', mt EndsContext.endsSeeding hx⟩
  | initialized hl hx => exact .inl ⟨hl, hx⟩
  | seeded hl _ hends | cipherFailed hl hends => exact .inr ⟨hl, hends⟩
  | processed hl hx => exact .inr ⟨.inr hl, mt EndsContext.endsSeeding hx⟩

/-- The primitive is seeded after an entry because the entry is a SET_IV over a key, or because it was and is not
ended. -/
theorem EntryMove.seeded_or (h : EntryMove lc x lc') (hl' : lc' = .ivset ∨ lc' = .processed) :
    (lc = .init ∨ lc = .ivset ∨ lc = .processed) ∧ Answered isSetIv .ok x ∨
      (lc = .ivset ∨ lc = .processed) ∧ ¬ EndsSeeding x := by
  cases h with
  | zeroized | allocated | initialized | cipherFailed => simp at hl'
  | kept hx => exact .inr ⟨hl', hx⟩
  | seeded hl hx => exact .inl ⟨hl, hx⟩
  | processed hl hx => exact .inr ⟨hl, hx⟩

end Moves

/-! ## What a run from reset has behind it (70_reset_and_hazards.md R233) -/

/-- The history has an entry that `marks`, with `before` of what came earlier, and nothing since that `ends`. -/
def Since (before : History → Prop) (marks ends : PortEvent × Option Response → Prop) (h : History) : Prop :=
  ∃ h1 x h2, h = h1 ++ x :: h2 ∧ before h1 ∧ marks x ∧ ∀ y ∈ h2, ¬ ends y

section Since
variable {before : History → Prop} {marks ends : PortEvent × Option Response → Prop} {h : History}
  {x : PortEvent × Option Response}

theorem Since.now (hb : before h) (hx : marks x) : Since before marks ends (h ++ [x]) :=
  ⟨h, x, [], rfl, hb, hx, nofun⟩

theorem Since.later (hs : Since before marks ends h) (hx : ¬ ends x) : Since before marks ends (h ++ [x]) := by
  obtain ⟨h1, m, h2, rfl, hb, hm, hrest⟩ := hs
  refine ⟨h1, m, h2 ++ [x], by simp, hb, hm, fun y hy => ?_⟩
  obtain hy | hy := List.mem_append.mp hy
  · exact hrest y hy
  · rw [List.mem_singleton.mp hy]
    exact hx

/-- The induction over a run: a condition on `LC` that is false at reset, and that an entry makes true only as a mark
over an earlier condition or by not ending it, is witnessed by the history. -/
theorem RunTo.since (holds prior : Lifecycle → Prop) (hreset : ¬ holds .unalloc)
    (hmove : ∀ {lc x lc'}, EntryMove lc x lc' → holds lc' → prior lc ∧ marks x ∨ holds lc ∧ ¬ ends x)
    (hbefore : ∀ {h t}, RunTo State.reset h t → prior t.eng.lc → before h)
    {t : State} (hrun : RunTo State.reset h t) (hl : holds t.eng.lc) : Since before marks ends h := by
  induction hrun with
  | start => exact absurd hl hreset
  | deliver ev _ ih => exact ih hl
  | take hrun hin ht ih =>
    obtain ⟨hprior, hmarks⟩ | ⟨hheld, hends⟩ := hmove (step_entryMove hin ht) hl
    · exact .now (hbefore hrun hprior) hmarks
    · exact (ih hheld).later hends

end Since

/-- An ALLOC answered OK, with its context still there. -/
def Allocated : History → Prop := Since (fun _ => True) (Answered isAlloc .ok) EndsContext

/-- An INIT answered OK of an allocated context, which is still there. -/
def Keyed : History → Prop := Since Allocated (Answered (fun j => j = .init) .ok) EndsContext

/-- A SET_IV answered OK over a key, with the primitive still seeded. -/
def Seeded : History → Prop := Since Keyed (Answered isSetIv .ok) EndsSeeding

section Run
variable {h : History} {t : State}

theorem RunTo.allocated (hrun : RunTo State.reset h t) (hl : t.eng.lc ≠ .unalloc) : Allocated h :=
  RunTo.since (· ≠ .unalloc) (fun _ => True) (by simp)
    (fun hmove hl => (hmove.allocated_or hl).imp_left fun ha => ⟨trivial, ha⟩) (fun _ _ => trivial) hrun hl

theorem RunTo.keyed (hrun : RunTo State.reset h t)
    (hl : t.eng.lc = .init ∨ t.eng.lc = .ivset ∨ t.eng.lc = .processed) : Keyed h :=
  RunTo.since (fun lc => lc = .init ∨ lc = .ivset ∨ lc = .processed) (· ≠ .unalloc) (by simp) EntryMove.keyed_or
    RunTo.allocated hrun hl

theorem RunTo.seeded (hrun : RunTo State.reset h t) (hl : t.eng.lc = .ivset ∨ t.eng.lc = .processed) : Seeded h :=
  RunTo.since (fun lc => lc = .ivset ∨ lc = .processed) (fun lc => lc = .init ∨ lc = .ivset ∨ lc = .processed)
    (by simp) EntryMove.seeded_or RunTo.keyed hrun hl

/-- The last entry of a history was taken by a step, deliveries behind it aside. -/
theorem RunTo.last {s : State} {g : History} {x : PortEvent × Option Response} (hrun : RunTo s g t)
    (hg : g = h ++ [x]) :
    ∃ u v ev rest, RunTo s h u ∧ u.inbox = ev :: rest ∧ step u = .next v ∧ x = (ev, v.resp) := by
  induction hrun with
  | start => simp at hg
  | deliver ev _ ih => exact ih hg
  | take hrun hin ht =>
    obtain ⟨rfl, hx⟩ := List.append_inj' hg rfl
    exact ⟨_, _, _, _, hrun, hin, ht, (List.singleton_inj.mp hx).symm⟩

end Run

/-- A PROCESS is answered OK only where the table admits it. -/
theorem lc_of_process_ok {s t : State} {ev : PortEvent} {rest : List PortEvent} (hin : s.inbox = ev :: rest)
    (ht : step s = .next t) (hx : Answered isProcess .ok (ev, t.resp)) :
    s.eng.lc = .ivset ∨ s.eng.lc = .processed := by
  obtain ⟨c, i, r, rfl, hdec, hi, hr, hok⟩ := hx
  cases i with
  | process dir =>
    by_contra hl
    have hrefused : lcAfterOk s.eng.lc (.process dir) = none := by simpa using hl
    cases hok.symm.trans (step_status_of_illegal_in_lc hin ht hr hdec hrefused)
  | _ => cases hi

/-- Settles O56: the PROCESS found `LC` at IVSET or PROCESSED, so the history before it is `Seeded`, hence `Keyed`
before its SET_IV and `Allocated` before its INIT. -/
theorem processOkNeedsCommandOrder : Obligations.ProcessOkNeedsCommandOrder := by
  intro h t x hrun hx
  obtain ⟨u, w, ev, rest, hbefore, hin, ht, rfl⟩ := hrun.last rfl
  obtain ⟨_, v, h4, rfl, ⟨_, i, h3, rfl, ⟨h1, a, h2, rfl, -, ha, h2_keeps⟩, hi, h3_keeps⟩, hv, h4_keeps⟩ :=
    hbefore.seeded (lc_of_process_ok hin ht hx)
  exact ⟨h1, h2, h3, h4, a, i, v, rfl, ha, hi, hv, h2_keeps, h3_keeps, h4_keeps⟩

end Sys2Proof.Machine
